-- ==== Sys2Proof/Word.lean ====
section
/-! DEFINITION. The word and byte types, and the numbers that name a domain, a bay, a lane, a tracker entry. -/

namespace Sys2Proof

/-- A word is 32 bits (1.6.1). -/
abbrev Word := BitVec 32

/-- A byte is 8 bits (1.6.1). -/
abbrev Byte := BitVec 8

/-- A requester domain, 0..7 (Table 0-2). -/
abbrev DomainId := Fin 8

/-- A module bay, 0..7 (Table 0-2). -/
abbrev BayId := Fin 8

/-- A page lane of a bay, 0..3 (R72). -/
abbrev LaneId := Fin 4

/-- The place of an entry in the tracker, 0..31 (R41). -/
abbrev EntryId := Fin 32

/-- A privilege level, 0..3; 0 is the most privileged (2.1.2). -/
abbrev Level := Fin 4

end Sys2Proof
end

