-- ==== Sys2Proof/Syntax.lean ====
section
/-! DEFINITION. The commands of the part: one constructor for each row of spec/opcode_table.json. -/

namespace Sys2Proof

/-- The module status word a POLL returns (R127). -/
structure StatusWord where
  ready      : Bool
  attention  : Bool
  supplyWarn : Bool
  supplyFail : Bool
  code       : Byte
  deriving DecidableEq, Repr

/-- A module's answer to an exchange (R68).
An ACK brings the data lines of the bay bus and the status word; MREAD and PREAD take the data, POLL takes the status word, the other kinds take neither (Table 4-1, log 10). -/
inductive Answer where
  | ack (data : Word) (status : StatusWord)
  | nak
  deriving DecidableEq, Repr

/-- The two presence contacts of a bay (R104). -/
inductive Contact where
  | first
  | second
  deriving DecidableEq, Repr

/-- The three slots of the identity read that the module acknowledges: those of steps 2, 3 and 5 (R110, Table 6-3). -/
inductive IdPhase where
  | addressWrite
  | offset
  | addressRead
  deriving DecidableEq, Repr

/-- An acknowledge slot of the identity read of a bay. -/
structure IdSlot where
  bay   : BayId
  phase : IdPhase
  deriving DecidableEq, Repr

/-- The commands of the part.
A row of the admission arbiter (READ to BAY_ACTION_UNKNOWN) has no operand: it is the arbiter's service of the request at the head of the queue it chooses, and the request's own fields stand in the intake queue (R30 to R32, log 2). -/
inductive Instr where
  -- device and link
  /-- POWER_ON_RESET (R103, R40, R66, R155). -/
  | powerOnReset
  /-- LINK_GAINED (R157). -/
  | linkGained
  /-- LINK_LOST (R157, R158). -/
  | linkLost
  /-- PACKET_RECEIVED: the words of the inbound packet (R159). -/
  | packetReceived (words : List Word)
  /-- TRANSMIT_CHOICE (R163). -/
  | transmitChoice
  -- data requests and SYNC
  /-- READ (R37). -/
  | read
  /-- WRITE (R37, R47). -/
  | write
  /-- BLOCK_READ (R88). -/
  | blockRead
  /-- BLOCK_WRITE (R88). -/
  | blockWrite
  /-- FETCH_ADD (R96). -/
  | fetchAdd
  /-- SYNC (R56). -/
  | sync
  -- event requests
  /-- CLAIM (R148). -/
  | claim
  /-- COMPLETE (R151). -/
  | complete
  /-- THRESHOLD (R153). -/
  | threshold
  /-- MESSAGE (R154). -/
  | message
  /-- CLEAR_SERVICE (R152). -/
  | clearService
  -- control requests
  /-- CTL_READ (R166). -/
  | ctlRead
  /-- CTL_WRITE of group APERTURE (R3). -/
  | ctlWriteAperture
  /-- CTL_WRITE of group DOMAIN (R25). -/
  | ctlWriteDomain
  /-- CTL_WRITE of group GRANT (R28). -/
  | ctlWriteGrant
  /-- CTL_WRITE of group ROUTE (R140). -/
  | ctlWriteRoute
  /-- CTL_WRITE of group DESCRIPTOR (R141). -/
  | ctlWriteDescriptor
  /-- CTL_WRITE of group DESC_LIMIT (R141). -/
  | ctlWriteDescLimit
  /-- CTL_WRITE of group BAY_POLICY (R122). -/
  | ctlWriteBayPolicy
  /-- CTL_WRITE of a read-only or unnamed group (R166). -/
  | ctlWriteOtherGroup
  -- bay actions
  /-- POWER_ON (R114). -/
  | powerOn
  /-- POWER_OFF (R115). -/
  | powerOff
  /-- AUX_ON (R107). -/
  | auxOn
  /-- AUX_OFF (R107). -/
  | auxOff
  /-- RESET (R118). -/
  | reset
  /-- RETRY (R120). -/
  | retry
  /-- PARK_LIGHT (R132). -/
  | parkLight
  /-- PARK_DEEP (R132). -/
  | parkDeep
  /-- WAKE (R136). -/
  | wake
  /-- CAPTURE_CLEAR (R172). -/
  | captureClear
  /-- A BAY_ACTION whose selector names no action (R39). -/
  | bayActionUnknown
  -- bay bus
  /-- BAY_DECISION_POINT (R83). -/
  | bayDecisionPoint (bay : BayId)
  /-- EXCHANGE_ANSWER: `late` says that the answer belongs to an exchange that has already ended or been abandoned (R68, log 9). -/
  | exchangeAnswer (bay : BayId) (late : Bool) (answer : Answer)
  /-- EXCHANGE_TIMEOUT (R68). -/
  | exchangeTimeout (bay : BayId)
  /-- DWELL_EXPIRY (R74). -/
  | dwellExpiry (bay : BayId) (lane : LaneId)
  /-- RECOVERY_EXPIRY (R75). -/
  | recoveryExpiry (bay : BayId) (lane : LaneId)
  /-- POLL_TIMER_EXPIRY (R125). -/
  | pollTimerExpiry (bay : BayId)
  /-- WAKE_TIMER_EXPIRY (R135). -/
  | wakeTimerExpiry (bay : BayId)
  -- module life
  /-- PRESENCE_CONTACT_CHANGE: the contact and whether it is now made (R104, R121). -/
  | presenceContactChange (bay : BayId) (contact : Contact) (made : Bool)
  /-- DEBOUNCE_EXPIRY (R105). -/
  | debounceExpiry (bay : BayId)
  /-- RAIL_GOOD: the level the rail switches now report (R106, log 8, log 33). -/
  | railGood (bay : BayId) (level : Bool)
  /-- RAIL_TIMER_EXPIRY (R106). -/
  | railTimerExpiry (bay : BayId)
  /-- HOLD_TIMER_EXPIRY (R108). -/
  | holdTimerExpiry (bay : BayId)
  /-- MODULE_READY: the level of the module ready input (R109, log 8). -/
  | moduleReady (bay : BayId) (level : Bool)
  /-- READY_TIMER_EXPIRY (R109). -/
  | readyTimerExpiry (bay : BayId)
  /-- ID_NO_ANSWER: the slot that the module left unacknowledged (R110). -/
  | idNoAnswer (slot : IdSlot)
  /-- IDENTITY_READ_END: the bytes of the data phase, in the order read (R110, R111). -/
  | identityReadEnd (bay : BayId) (bytes : List Byte)
  deriving DecidableEq, Repr

end Sys2Proof
end

