-- ==== Sys2Proof/Decode.lean ====
section
/-! DEFINITION. The command a word of the opcode table spells. No row of spec/opcode_table.json gives bits, so no word spells a command (log 25). The packet formats of the uplink are in Machine/Packets.lean. -/

namespace Sys2Proof

/-- The command whose table bits are `w`: none, since no row of the table gives bits. -/
def decodeTableWord (_nbits _w : Nat) : Option Instr := none

end Sys2Proof
end

