-- ==== Sys2Proof/Config.lean ====
section
/-! DEFINITION. What the part fixes: its durations, depths and counts. The spec leaves no value open, so no constant here is a free value. -/

namespace Sys2Proof.Config

/-- The debounce of SEATING, 20 ms, in µs (R104). -/
def debounceTime : Nat := 20000
/-- The rail timer of POWERING, 50 ms, in µs (R106). -/
def railTime : Nat := 50000
/-- The hold timer of HELD, 10 ms, in µs (R108). -/
def holdTime : Nat := 10000
/-- The wake timer after a LIGHT park, in µs (R134). -/
def lightWakeTime : Nat := 5
/-- The poll interval that an identity poll interval of 0 stands for, in units of 100 µs (R124). -/
def defaultPollUnits : Nat := 1000
/-- The poll interval unit in µs (R124). -/
def pollUnit : Nat := 100
/-- The depth of an intake queue (R161). -/
def intakeDepth : Nat := 8
/-- The depth of the refusal queue (R162). -/
def refusalDepth : Nat := 8
/-- The greatest owed poll count (R125). -/
def owedMax : Nat := 8
/-- The consecutive timeouts that fault a bay (R70). -/
def timeoutMax : Nat := 3
/-- The distance between two interjection points of a block, in units (R93). -/
def interjectionStride : Nat := 32
/-- The greatest payload length in words (Table 9-1). -/
def payloadMax : Nat := 512
/-- A page of module memory, in bytes (R15). -/
def pageBytes : Nat := 4096
/-- The module memory space, 2^28 bytes (R4). -/
def memorySpace : Nat := 2 ^ 28
/-- The port space of a bay, in bytes (R4). -/
def portSpace : Nat := 4096
/-- A port group, in bytes (R14). -/
def groupBytes : Nat := 16
/-- The greatest more-count of the error capture (R171). -/
def moreMax : Nat := 255
/-- The line address every module answers to (R110). -/
def identityAddress : Nat := 0x4D
/-- The DEVICE_ID record (R169, Table 10-4): part code 0x0408 and revision 1; 32 entries, 8 domains, 8 bays, 32 apertures. -/
def deviceId : List Word := [0x00010408#32, 0x20080820#32]

end Sys2Proof.Config
end

