-- ==== Sys2Proof/Machine/State.lean ====
section
/-! DEFINITION. Everything the spec gives the part, as plain data, block by block (Figure 0-1), and the part right after a power-on reset. -/

namespace Sys2Proof.Machine

/-! ### Packets -/

/-- The link state (R157). -/
inductive LinkState where
  | down
  | up
  deriving DecidableEq, Repr

/-- The fourteen request kinds (Table 9-5). -/
inductive ReqKind where
  | read
  | write
  | blockRead
  | blockWrite
  | fetchAdd
  | sync
  | claim
  | complete
  | threshold
  | message
  | clearService
  | ctlRead
  | ctlWrite
  | bayAction
  deriving DecidableEq, Repr

/-- The 22 response statuses (Table 9-5). -/
inductive Status where
  | ok
  | malformed
  | queueFull
  | domainOff
  | noAperture
  | span
  | wrongKind
  | level
  | writeProtect
  | portDenied
  | railOff
  | bayNotReady
  | range
  | moduleNak
  | timeout
  | moduleGone
  | bayReset
  | bayFaulted
  | noDescriptor
  | nothingInService
  | badRecord
  | badState
  deriving DecidableEq, Repr

/-- The step field of a request (Table 9-3). -/
inductive Stride where
  | none
  | increment
  | hold
  | decrement
  deriving DecidableEq, Repr

/-- A request that passed the form check, as it waits in an intake queue (R161, Table 9-3).
`size` is in bytes, 0 for a request without one; `word1` is header word 1, read by each kind in its own way. -/
structure Request where
  kind    : ReqKind
  domain  : DomainId
  tag     : Byte
  size    : Nat
  stride  : Stride
  word1   : Word
  mask    : Byte
  aux     : Byte
  count   : Nat
  payload : List Word
  deriving DecidableEq, Repr

/-- A refusal made by the receiver: the header fields as read, and MALFORMED or QUEUE_FULL (R160, R161). -/
structure UplinkRefusal where
  kindCode : BitVec 4
  domain   : DomainId
  tag      : Byte
  status   : Status
  deriving DecidableEq, Repr

/-- The flags of a response (R164). -/
structure Flags where
  carry       : Bool := false
  spurious    : Bool := false
  defect      : Bool := false
  untracked   : Bool := false
  postedFault : Bool := false
  deriving DecidableEq, Repr

/-- A response as made ready (R46, R164). -/
structure Response where
  domain    : DomainId
  tag       : Byte
  status    : Status
  unitsDone : Nat
  flags     : Flags
  result    : Word
  payload   : List Word
  deriving DecidableEq, Repr

/-- The uplink receiver and transmitter (R157 to R163). -/
structure Uplink where
  link     : LinkState
  intake   : Vector (List Request) 8
  refusals : List UplinkRefusal
  outLink  : Option (List Word)
  deriving DecidableEq, Repr

/-! ### Admission unit -/

/-- MEMORY or PORT space (Table 1-1). -/
inductive Space where
  | memory
  | port
  deriving DecidableEq, Repr

/-- The data width of an exchange (Table 1-1). -/
inductive Width where
  | w8
  | w16
  | w32
  deriving DecidableEq, Repr

/-- The page policy (Table 1-1). -/
inductive PagePolicy where
  | hold
  | close
  deriving DecidableEq, Repr

/-- The ordering attribute (Table 1-1). -/
inductive HoldRule where
  | strict
  | relaxed
  deriving DecidableEq, Repr

/-- An aperture record (Table 1-1). `first` and `last` are its start and end. -/
structure Aperture where
  valid        : Bool
  kind         : Space
  first        : Word
  last         : Word
  offset       : Word
  bay          : BayId
  width        : Width
  policy       : PagePolicy
  posting      : Bool
  ordering     : HoldRule
  writeProtect : Bool
  auxGated     : Bool
  level        : Level
  mask         : Byte
  deriving DecidableEq, Repr

/-- The cleared record (R2). -/
def Aperture.cleared : Aperture :=
  { valid := false, kind := .memory, first := 0, last := 0, offset := 0, bay := 0, width := .w8, policy := .hold,
    posting := false, ordering := .strict, writeProtect := false, auxGated := false, level := 0, mask := 0 }

/-- A domain record (Table 2-1). -/
structure DomainRec where
  enabled  : Bool
  level    : Level
  spurious : Fin 256
  deriving DecidableEq, Repr

/-- The admission unit (R1, R24, R27, R28, R30). Grant record d × 8 + b is eight words. -/
structure AdmissionUnit where
  apertures  : Vector Aperture 32
  domains    : Vector DomainRec 8
  grants     : Vector (Vector Word 8) 64
  freeLevels : Vector Level 8
  lastServed : DomainId
  deriving DecidableEq, Repr

/-! ### Transaction tracker -/

/-- The translation copy of an admitted data request (Table 1-4). -/
structure Translation where
  bay      : BayId
  aperture : Fin 32
  addr     : Nat
  width    : Width
  kind     : Space
  policy   : PagePolicy
  ordering : HoldRule
  auxGated : Bool
  deriving DecidableEq, Repr

/-- The states of an entry (Table 3-2). -/
inductive EntryState where
  | free
  | held
  | queued
  | running
  | suspended
  | waiting
  | done
  deriving DecidableEq, Repr

/-- A tracker entry (Table 3-1).
`flags` and `result` are what its response will carry beside its status, units done and data buffer (R46).
`response` is the response as made ready; it is present exactly while the table's field response ready is yes (log 22). -/
structure Entry where
  state     : EntryState
  domain    : DomainId
  tag       : Byte
  kind      : ReqKind
  xlat      : Option Translation
  size      : Nat
  count     : Nat
  stride    : Stride
  unitsDone : Nat
  operand   : BitVec 64
  oldValue  : Option (BitVec 64)
  carry     : Bool
  posted    : Bool
  stale     : Bool
  discard   : Bool
  status    : Status
  flags     : Flags
  result    : Word
  buffer    : List Word
  response  : Option Response
  seq       : Option Nat
  deriving DecidableEq, Repr

/-- A FREE entry. Its other fields hold no meaning (R41); the model keeps them at these values (log 15). -/
def Entry.blank : Entry :=
  { state := .free, domain := 0, tag := 0, kind := .read, xlat := none, size := 0, count := 0, stride := .none,
    unitsDone := 0, operand := 0, oldValue := none, carry := false, posted := false, stale := false, discard := false,
    status := .ok, flags := {}, result := 0, buffer := [], response := none, seq := none }

/-- The transaction tracker (R41, R44, R45, R60).
`taken` lists every entry in use in the order the admission arbiter took them, oldest first.
The admission list, the posted set and the hold lists are views of it (log 16). -/
structure Tracker where
  entries     : Vector Entry 32
  taken       : List EntryId
  postedFault : Vector Bool 8
  order       : List EntryId
  nextSeq     : Nat
  deriving DecidableEq, Repr

/-! ### Bay engine -/

/-- The thirteen bay states (Table 6-1). -/
inductive BayState where
  | empty
  | seating
  | unpowered
  | powering
  | held
  | starting
  | identifying
  | online
  | parking
  | parked
  | waking
  | draining
  | faulted
  deriving DecidableEq, Repr

/-- The depth of a park (7.4). -/
inductive Depth where
  | light
  | deep
  deriving DecidableEq, Repr

/-- The fault causes (Table 6-5a), and NONE. -/
inductive FaultCause where
  | none
  | railTimeout
  | readyTimeout
  | idNoAnswer
  | identityBad
  | exchangeTimeouts
  | moduleNotReady
  deriving DecidableEq, Repr

/-- The eight condition kinds of a bay (Table 7-3). -/
inductive CondKind where
  | presence
  | online
  | attention
  | supplyWarn
  | supplyFail
  | bayFault
  | postedFault
  | pollOverrun
  deriving DecidableEq, Repr

/-- The module identity record: the 32 bytes as read (Table 9-10). -/
abbrev IdentityRecord := Vector Byte 32

/-- The power policy (Table 6-6). -/
inductive PowerPolicy where
  | manual
  | auto
  deriving DecidableEq, Repr

/-- The bay policy record but for the free level, which the admission unit holds (Table 6-6). Bit k of `sense` is the enable of kind k. -/
structure BayPolicy where
  power           : PowerPolicy
  readyTimeout    : Nat
  exchangeTimeout : Nat
  pollOverride    : Nat
  sense           : Byte
  deriving DecidableEq, Repr

/-- The lane states (Table 4-3). -/
inductive LaneState where
  | closed
  | opening
  | opened
  | closing
  deriving DecidableEq, Repr

/-- A lane record with its two timers (Table 4-3, R74, R75). A timer that runs holds the length in µs it was started with. -/
structure Lane where
  state          : LaneState
  page           : Option Nat
  dwellExpired   : Bool
  releasePending : Bool
  pinned         : Bool
  dwellTimer     : Option Nat
  recoveryTimer  : Option Nat
  deriving DecidableEq, Repr

/-- A CLOSED lane (R72). -/
def Lane.shut : Lane :=
  { state := .closed, page := none, dwellExpired := false, releasePending := false, pinned := false,
    dwellTimer := none, recoveryTimer := none }

/-- What an exchange carries to the module (Table 4-1). Data byte j and mask bit j are the byte at address + j (R20). -/
inductive ExchangeOp where
  | select (lane : LaneId) (page : Nat)
  | release (lane : LaneId)
  | mread (addr : Nat) (width : Width)
  | mwrite (addr : Nat) (width : Width) (data : List Byte) (mask : List Bool)
  | pread (addr : Nat) (width : Width)
  | pwrite (addr : Nat) (width : Width) (data : List Byte) (mask : List Bool)
  | poll
  deriving DecidableEq, Repr

/-- The exchange in progress, and the length in µs its exchange timer was started with (R67, R68). -/
structure Exchange where
  op      : ExchangeOp
  timeout : Nat
  deriving DecidableEq, Repr

/-- The direction of a unit (R17). -/
inductive UnitDir where
  | read
  | write
  | fetchAdd
  deriving DecidableEq, Repr

/-- How far the unit under way has come: its lane preparation (R76), then its data exchanges, numbered from 0 (R18). -/
inductive UnitPhase where
  | awaitDwell
  | releasing
  | awaitRecovery
  | selecting
  | reading (j : Nat)
  | writing (j : Nat)
  deriving DecidableEq, Repr

/-- The lane and the page of a MEMORY unit (R15, R16). -/
structure LanePlace where
  lane : LaneId
  page : Nat
  deriving DecidableEq, Repr

/-- The unit under way at a bay. `place` is absent for a PORT unit.
`value` holds the bytes to write; for a FETCH_ADD the operand, and the new value from the addition on (R97).
`got` holds the bytes kept from its read exchanges so far. -/
structure UnitRun where
  entry  : EntryId
  dir    : UnitDir
  addr   : Nat
  size   : Nat
  width  : Width
  policy : PagePolicy
  place  : Option LanePlace
  value  : List Byte
  phase  : UnitPhase
  got    : List Byte
  deriving DecidableEq, Repr

/-- The direction of an address phase on the identity line (Table 6-3). -/
inductive LineDir where
  | write
  | read
  deriving DecidableEq, Repr

/-- What happens on the identity line: a mark, or a byte sent with its acknowledge slot (6.5.1, Table 6-3). -/
inductive LineAct where
  | openingMark
  | closingMark
  | address (addr : Nat) (dir : LineDir) (acked : Bool)
  | offset (value : Nat) (acked : Bool)
  | data (byte : Byte) (acked : Bool)
  deriving DecidableEq, Repr

/-- A bay engine with its inputs and outputs (Table 0-6, R72, R84, R102 to R122, R124 to R127).
`timer` is the bay timer of the present state, `pollTimer` the poll timer; each holds the length in µs it was started with.
`due` says that a decision point has come and the arbiter has not yet made its choice (R82, log 14); `idLine` is what the last identity read has put on the identity line (R110, log 18). -/
structure Bay where
  contactFirst   : Bool
  contactSecond  : Bool
  railGood       : Bool
  moduleReady    : Bool
  state          : BayState
  depth          : Option Depth
  mainRail       : Bool
  auxRail        : Bool
  moduleReset    : Bool
  auxWanted      : Bool
  drainRequested : Bool
  cause          : FaultCause
  identity       : Option IdentityRecord
  timer          : Option Nat
  pollTimer      : Option Nat
  policy         : BayPolicy
  lanes          : Vector Lane 4
  queue          : List EntryId
  owed           : Nat
  timeouts       : Nat
  forced         : Bool
  due            : Bool
  lastStatus     : StatusWord
  exchange       : Option Exchange
  unit           : Option UnitRun
  idLine         : List LineAct
  deriving DecidableEq, Repr

/-- The power-on values of the bay policy record (Table 6-6). -/
def BayPolicy.initial : BayPolicy :=
  { power := .manual, readyTimeout := 500, exchangeTimeout := 64, pollOverride := 0, sense := 0 }

/-- The status word with every field 0 (R127). -/
def zeroStatus : StatusWord :=
  { ready := false, attention := false, supplyWarn := false, supplyFail := false, code := 0 }

/-- A bay engine after a power-on reset (Table 6-2), with no contact made, no rail-good and no module ready at its inputs (log 7). -/
def Bay.initial : Bay :=
  { contactFirst := false, contactSecond := false, railGood := false, moduleReady := false,
    state := .empty, depth := none, mainRail := false, auxRail := false, moduleReset := true,
    auxWanted := false, drainRequested := false, cause := .none, identity := none, timer := none, pollTimer := none,
    policy := BayPolicy.initial, lanes := Vector.replicate 4 Lane.shut, queue := [], owed := 0, timeouts := 0,
    forced := false, due := false, lastStatus := zeroStatus, exchange := none, unit := none, idLine := [] }

/-! ### Event unit -/

/-- A route record (Table 8-1). -/
structure Route where
  masked      : Bool
  priority    : Fin 16
  vector      : Fin 256
  destination : DomainId
  deriving DecidableEq, Repr

/-- The power-on value of a route record (Table 8-1). -/
def Route.initial : Route := { masked := true, priority := 0, vector := 0, destination := 0 }

/-- TRACKED or UNTRACKED (Table 8-2). -/
inductive Tracking where
  | tracked
  | untracked
  deriving DecidableEq, Repr

/-- A descriptor record (Table 8-2). -/
structure Descriptor where
  present      : Bool
  kind         : Tracking
  messageLevel : Level
  handler      : Word
  deriving DecidableEq, Repr

/-- The power-on value of a descriptor record (R141). -/
def Descriptor.initial : Descriptor := { present := false, kind := .tracked, messageLevel := 0, handler := 0 }

/-- The unit of delivery: a bay source, or a message channel paired with a domain (R137). -/
inductive Item where
  | bay (source : Fin 64)
  | msg (channel : Fin 4) (domain : DomainId)
  deriving DecidableEq, Repr

/-- An in-service entry (R143). -/
structure InService where
  source   : Fin 68
  priority : Fin 16
  vector   : Fin 256
  deriving DecidableEq, Repr

/-- The delivery state of a domain (Table 8-3). `inService` is newest first: its head is the top of the list. -/
structure Delivery where
  threshold : Fin 16
  signal    : Bool
  notice    : Bool
  inService : List InService
  deriving DecidableEq, Repr

/-- The power-on value of a domain's delivery state (Table 8-3). -/
def Delivery.initial : Delivery := { threshold := 15, signal := false, notice := false, inService := [] }

/-- The event unit (R137 to R143). Bit 8 × c + e of the message vectors is item (c, e). -/
structure EventUnit where
  routes      : Vector Route 68
  descriptors : Vector Descriptor 256
  limit       : Nat
  bayPending  : Vector Bool 64
  msgPending  : Vector Bool 32
  bayActive   : Vector Bool 64
  msgActive   : Vector Bool 32
  delivery    : Vector Delivery 8
  deriving DecidableEq, Repr

/-! ### Control space -/

/-- The kinds of an error offer (Table 10-6). -/
inductive OfferKind where
  | moduleNak
  | timeout
  | railOff
  | moduleGone
  | bayReset
  | bayFaulted
  | bayNotReady
  | pollFailed
  | descriptorMissing
  | runtPacket
  | railTimeout
  | readyTimeout
  | idNoAnswer
  | identityBad
  | exchangeTimeouts
  | moduleNotReady
  deriving DecidableEq, Repr

/-- An error offered to the control space (Table 10-6): what is known of it. -/
structure Offer where
  kind : OfferKind
  who  : Option (DomainId × Byte)
  bay  : Option BayId
  xlat : Option (Fin 32 × Nat)
  deriving DecidableEq, Repr

/-- A valid error capture record: the first offer, and the count of those that followed (R170, R171). -/
structure CaptureRecord where
  offer : Offer
  more  : Nat
  deriving DecidableEq, Repr

/-! ### The whole part -/

/-- The part, block by block, and the model's own queue of commands that wait, first in first out.
`capture` is none while the error capture record is invalid (R170). -/
structure State where
  uplink  : Uplink
  tables  : AdmissionUnit
  tracker : Tracker
  bays    : Vector Bay 8
  events  : EventUnit
  capture : Option CaptureRecord
  pending : List Instr
  deriving DecidableEq, Repr

/-- The part has no way to stop: every error the spec describes is a status, a capture offer, a flag or a FAULTED bay.
No command raises a fault, so the type has no constructor (log 20). -/
inductive Fault where
  deriving DecidableEq, Repr

/-- Why a command was given no meaning. -/
inductive Refusal where
  /-- Raised by `exec` for a command whose meaning is not written yet; safe, since nothing is claimed of it. No command of this model raises it. -/
  | notModelled (mnemonic : String)
  deriving DecidableEq, Repr

/-- The domain table after a power-on reset (Table 2-2). -/
def initialDomains : Vector DomainRec 8 :=
  (Vector.replicate 8 { enabled := false, level := 3, spurious := 255 }).set 0 { enabled := true, level := 0, spurious := 255 }

/-- The receiver and transmitter after a power-on reset (R157, R158). -/
def Uplink.initial : Uplink :=
  { link := .down, intake := Vector.replicate 8 [], refusals := [], outLink := none }

/-- The admission unit after a power-on reset (R40). -/
def AdmissionUnit.initial : AdmissionUnit :=
  { apertures := Vector.replicate 32 Aperture.cleared, domains := initialDomains,
    grants := Vector.replicate 64 (Vector.replicate 8 0), freeLevels := Vector.replicate 8 0, lastServed := 7 }

/-- The tracker after a power-on reset (R66). -/
def Tracker.initial : Tracker :=
  { entries := Vector.replicate 32 Entry.blank, taken := [], postedFault := Vector.replicate 8 false, order := [], nextSeq := 0 }

/-- The event unit after a power-on reset (R155). -/
def EventUnit.initial : EventUnit :=
  { routes := Vector.replicate 68 Route.initial, descriptors := Vector.replicate 256 Descriptor.initial, limit := 0,
    bayPending := Vector.replicate 64 false, msgPending := Vector.replicate 32 false,
    bayActive := Vector.replicate 64 false, msgActive := Vector.replicate 32 false,
    delivery := Vector.replicate 8 Delivery.initial }

/-- The part right after a power-on reset, with empty bays at its inputs and no command waiting. -/
def State.reset : State :=
  { uplink := Uplink.initial, tables := AdmissionUnit.initial, tracker := Tracker.initial,
    bays := Vector.replicate 8 Bay.initial, events := EventUnit.initial, capture := none, pending := [] }

end Sys2Proof.Machine
end

