-- ==== Sys2Proof/Machine/Bits.lean ====
section
/-! DEFINITION. Bit fields of words, bytes of words, and byte strings as numbers. Byte order is least significant first throughout (R20, R165). -/

namespace Sys2Proof.Machine

/-- The field of `len` bits of `w` whose lowest bit is `lo`. -/
def bits (w : Word) (lo len : Nat) : Nat := w.toNat / 2 ^ lo % 2 ^ len

/-- Bit `i` of `w`. -/
def bit (w : Word) (i : Nat) : Bool := bits w i 1 == 1

/-- A bit as a number. -/
def bitVal (b : Bool) : Nat := if b then 1 else 0

/-- A word made of fields, each given with its lowest bit; the other bits are 0. -/
def packFields (fields : List (Nat × Nat)) : Word :=
  BitVec.ofNat 32 (fields.foldr (fun f acc => f.1 * 2 ^ f.2 + acc) 0)

/-- Byte `j` of a word, byte 0 the least significant. -/
def wordByte (w : Word) (j : Nat) : Byte := BitVec.ofNat 8 (w.toNat / 2 ^ (8 * j))

/-- A word made of four bytes, the first the least significant. -/
def wordOfBytes (b0 b1 b2 b3 : Byte) : Word :=
  BitVec.ofNat 32 (b0.toNat + 2 ^ 8 * b1.toNat + 2 ^ 16 * b2.toNat + 2 ^ 24 * b3.toNat)

/-- The bytes of a list of words, taken word by word (R165). -/
def bytesOfWords : List Word → List Byte
  | [] => []
  | w :: ws => wordByte w 0 :: wordByte w 1 :: wordByte w 2 :: wordByte w 3 :: bytesOfWords ws

/-- Bytes placed in whole words; the bytes beyond the last one are 0 (R165). -/
def wordsOfBytes : List Byte → List Word
  | [] => []
  | [a] => [wordOfBytes a 0 0 0]
  | [a, b] => [wordOfBytes a b 0 0]
  | [a, b, c] => [wordOfBytes a b c 0]
  | a :: b :: c :: d :: rest => wordOfBytes a b c d :: wordsOfBytes rest

/-- A byte string as a number. -/
def natOfBytes : List Byte → Nat
  | [] => 0
  | b :: bs => b.toNat + 256 * natOfBytes bs

/-- The first `n` bytes of a number. -/
def bytesOfNat : Nat → Nat → List Byte
  | 0, _ => []
  | n + 1, v => BitVec.ofNat 8 v :: bytesOfNat n (v / 256)

/-- The bytes of value `k` of a byte stream of values of `size` bytes (R165). -/
def streamValue (bytes : List Byte) (size k : Nat) : List Byte := (bytes.drop (k * size)).take size

/-- A list cut or padded to `n` elements. -/
def takePad {α : Type} (n : Nat) (pad : α) (l : List α) : List α :=
  (List.range n).map fun j => l.getD j pad

/-- A vector of `n` elements made from a function of the index. -/
def tabulate {α : Type} (n : Nat) (f : Fin n → α) : Vector α n :=
  ⟨((List.finRange n).map f).toArray, by simp⟩

end Sys2Proof.Machine
end

