-- ==== Sys2Proof/Machine/Operands.lean ====
section
/-! DEFINITION. What a data request addresses: its span, its translation, its port groups, the units of a block, pages and lanes, and the data exchanges of a unit with their byte placement (Chapter 1, R88). -/

namespace Sys2Proof.Machine

/-! ### Kinds -/

/-- READ, WRITE, BLOCK_READ, BLOCK_WRITE, FETCH_ADD (Chapter 1). -/
def ReqKind.isData : ReqKind → Bool
  | .read | .write | .blockRead | .blockWrite | .fetchAdd => true
  | _ => false

/-- WRITE, BLOCK_WRITE and FETCH_ADD are writes for every check (Chapter 1). -/
def ReqKind.isWrite : ReqKind → Bool
  | .write | .blockWrite | .fetchAdd => true
  | _ => false

/-- BLOCK_READ and BLOCK_WRITE. -/
def ReqKind.isBlock : ReqKind → Bool
  | .blockRead | .blockWrite => true
  | _ => false

/-- The direction in which the units of a data request are carried out (R17). -/
def ReqKind.dir : ReqKind → UnitDir
  | .write | .blockWrite => .write
  | .fetchAdd => .fetchAdd
  | _ => .read

/-- The number of units of an entry: the count of a block, else 1. -/
def unitCount (kind : ReqKind) (count : Nat) : Nat := if kind.isBlock then count else 1

/-- A width in bytes. -/
def Width.bytes : Width → Nat
  | .w8 => 1
  | .w16 => 2
  | .w32 => 4

/-! ### Span (Table 1-3), in exact arithmetic -/

/-- The lowest uplink byte a data request touches (R8). -/
def spanLow (r : Request) : Int :=
  if r.kind.isBlock && r.stride == .decrement then (r.word1.toNat : Int) - ((r.count : Int) - 1) * r.size
  else r.word1.toNat

/-- The highest uplink byte a data request touches (R8). -/
def spanHigh (r : Request) : Int :=
  if r.kind.isBlock && r.stride == .increment then (r.word1.toNat : Int) + r.count * r.size - 1
  else (r.word1.toNat : Int) + r.size - 1

/-- The span check (R8). -/
def spanInside (r : Request) (a : Aperture) : Bool :=
  decide ((a.first.toNat : Int) ≤ spanLow r) && decide (spanHigh r ≤ a.last.toNat)

/-- The module address of uplink byte `b` through aperture `a` (R11). -/
def translate (a : Aperture) (b : Nat) : Nat := a.offset.toNat + (b - a.first.toNat)

/-- The module span of a request that passed the span check (R11). -/
def moduleLow (r : Request) (a : Aperture) : Nat := translate a (spanLow r).toNat
/-- See `moduleLow`. -/
def moduleHigh (r : Request) (a : Aperture) : Nat := translate a (spanHigh r).toNat

/-- The lookup conditions of R6 for domain `d` and first byte `b`. -/
def Aperture.matches (a : Aperture) (d : DomainId) (b : Nat) : Bool :=
  a.valid && decide (a.first.toNat ≤ b) && decide (b ≤ a.last.toNat) && a.mask.getLsbD d

/-- The match of a request: the lowest-numbered record that meets R6. -/
def lookup (tbl : Vector Aperture 32) (r : Request) : Option (Fin 32) :=
  (List.finRange 32).find? fun i => tbl[i].matches r.domain r.word1.toNat

/-- The port groups between the ends of the module span, each once (R14). -/
def portGroups (r : Request) (a : Aperture) : List Nat :=
  let lo := moduleLow r a / Config.groupBytes
  let hi := moduleHigh r a / Config.groupBytes
  (List.range (hi + 1 - lo)).map (lo + ·)

/-- The translation copy of an admitted request whose match is record `i` with contents `a` (R12). -/
def translation (r : Request) (i : Fin 32) (a : Aperture) : Translation :=
  { bay := a.bay, aperture := i, addr := translate a r.word1.toNat, width := a.width, kind := a.kind,
    policy := a.policy, ordering := a.ordering, auxGated := a.auxGated }

/-! ### Units -/

/-- The module address of unit `k` of a request whose first unit is at `m` (R12, R88). -/
def unitAddr (m : Nat) (stride : Stride) (size k : Nat) : Nat :=
  match stride with
  | .increment => m + k * size
  | .decrement => m - k * size
  | .hold => m
  | .none => m

/-- The page of a module memory address (R15). -/
def pageOf (addr : Nat) : Nat := addr / Config.pageBytes

/-- The lane of a page for a lane count (R16). An accepted identity record has a lane count of 1 to 4, so the remainder is a lane number. -/
def laneOf (page laneCount : Nat) : LaneId := Fin.ofNat 4 (page % laneCount)

/-- The address of the first data exchange of a unit (R18, R19). -/
def exchangeBase (addr : Nat) (w : Width) : Nat := addr - addr % w.bytes

/-- The number of data exchanges of a unit, or of one half of a FETCH_ADD (Table 1-6). -/
def exchangeCount (size : Nat) (w : Width) : Nat := if size < w.bytes then 1 else size / w.bytes

/-- The address of data exchange `j` (R18, R19). -/
def exchangeAddr (addr : Nat) (w : Width) (j : Nat) : Nat := exchangeBase addr w + j * w.bytes

/-- Byte `b` of module memory belongs to the unit at `addr` of `size` bytes. -/
def inUnit (addr size b : Nat) : Bool := decide (addr ≤ b) && decide (b < addr + size)

/-- The data bytes of a write exchange at `x`; a disabled byte is driven as zero (R19, R20). -/
def writeData (addr size : Nat) (w : Width) (value : List Byte) (x : Nat) : List Byte :=
  (List.range w.bytes).map fun j => if inUnit addr size (x + j) then value.getD (x + j - addr) 0 else 0

/-- The byte mask of a write exchange at `x` (R18, R19). -/
def writeMask (addr size : Nat) (w : Width) (x : Nat) : List Bool :=
  (List.range w.bytes).map fun j => inUnit addr size (x + j)

/-- The bytes kept from a read exchange at `x` that returned `data` (R19, R20). -/
def keptBytes (addr size : Nat) (w : Width) (x : Nat) (data : Word) : List Byte :=
  ((List.range w.bytes).filter fun j => inUnit addr size (x + j)).map fun j => wordByte data j

/-! ### FETCH_ADD arithmetic (R97 step 4) -/

/-- The sum of the old value and the operand, exact. -/
def fetchSum (old operand : List Byte) : Nat := natOfBytes old + natOfBytes operand

/-- The new value: the sum modulo 2^(8 × size), as bytes. -/
def fetchNew (size : Nat) (old operand : List Byte) : List Byte :=
  bytesOfNat size (fetchSum old operand % 2 ^ (8 * size))

/-- The carry: the sum is 2^(8 × size) or more. -/
def fetchCarry (size : Nat) (old operand : List Byte) : Bool := decide (2 ^ (8 * size) ≤ fetchSum old operand)

/-! ### Identity record fields (Table 9-10) -/

/-- The format field. -/
def idFormat (r : IdentityRecord) : Nat := r[0].toNat
/-- The class code. -/
def idClass (r : IdentityRecord) : Nat := r[1].toNat + 256 * r[2].toNat
/-- The revision. -/
def idRevision (r : IdentityRecord) : Nat := r[3].toNat
/-- The lane count. -/
def idLaneCount (r : IdentityRecord) : Nat := r[4].toNat
/-- The memory pages. -/
def idMemoryPages (r : IdentityRecord) : Nat := r[5].toNat + 256 * r[6].toNat
/-- The poll interval in units of 100 µs. -/
def idPollInterval (r : IdentityRecord) : Nat := r[7].toNat + 256 * r[8].toNat
/-- The dwell in µs. -/
def idDwell (r : IdentityRecord) : Nat := r[9].toNat
/-- The recovery in µs. -/
def idRecovery (r : IdentityRecord) : Nat := r[10].toNat
/-- The deep wake time in µs. -/
def idDeepWake (r : IdentityRecord) : Nat := r[11].toNat + 256 * r[12].toNat
/-- The aux-needed flag. -/
def idAuxNeeded (r : IdentityRecord) : Bool := r[13].getLsbD 0
/-- The serial number, bytes 14 to 21. -/
def idSerial (r : IdentityRecord) : List Byte := (r.toList.drop 14).take 8

/-- The acceptance checks of R111: the sum of the 32 bytes, the format and the lane count. -/
def idAccepted (r : IdentityRecord) : Bool :=
  ((r.toList.map BitVec.toNat).sum % 256 == 0) && idFormat r == 1 && decide (1 ≤ idLaneCount r) && decide (idLaneCount r ≤ 4)

/-- The 32 bytes of a data phase. A byte the module did not drive reads as 0xFF (R110). -/
def identityOfBytes (bytes : List Byte) : IdentityRecord := tabulate 32 fun j => bytes.getD j 0xFF

end Sys2Proof.Machine
end

