-- ==== Sys2Proof/Machine/BayEngine.lean ====
section
/-! DEFINITION. What one bay engine does by itself, on its own state alone: entering a bay state with its outputs (Chapter 6), its lanes (4.2), its exchanges, the unit under way (1.5, 4.2.3, 5.4), its arbiter's choice among polls and releases (4.4), and the ends of park, wake and drain (6.7.3, 7.4). What an exchange's end means for the tracker is a `UnitResult`. -/

namespace Sys2Proof.Machine

/-! ### Bay states (Table 6-1) -/

/-- The main rail is on in this state (Table 6-1). -/
def BayState.powered : BayState → Bool
  | .empty | .seating | .unpowered | .faulted => false
  | .powering | .held | .starting | .identifying | .online | .parking | .parked | .waking | .draining => true

/-- Module reset is asserted in this state (Table 6-1). -/
def BayState.inReset : BayState → Bool
  | .empty | .seating | .unpowered | .powering | .held | .faulted => true
  | .starting | .identifying | .online | .parking | .parked | .waking | .draining => false

/-- ONLINE, PARKING, PARKED, WAKING and DRAINING: the bay holds an identity record and its poll timer runs (R102, R124). -/
def BayState.inService : BayState → Bool
  | .online | .parking | .parked | .waking | .draining => true
  | .empty | .seating | .unpowered | .powering | .held | .starting | .identifying | .faulted => false

/-- The bay bus arbiter acts in ONLINE, PARKING and DRAINING (R82). -/
def BayState.arbitrates : BayState → Bool
  | .online | .parking | .draining => true
  | .empty | .seating | .unpowered | .powering | .held | .starting | .identifying | .parked | .waking | .faulted => false

/-- A depth is kept in PARKING, PARKED and WAKING (7.4). -/
def BayState.hasDepth : BayState → Bool
  | .parking | .parked | .waking => true
  | .empty | .seating | .unpowered | .powering | .held | .starting | .identifying | .online | .draining | .faulted => false

/-- Entering state `st`: the outputs of Table 6-1 change together, the aux rail following the main rail (R107); the timer of the state left is stopped (R102); what `st` does not hold is dropped: the identity record and the poll timer with its owed polls outside the five states in service (R102, R124, R125), the forced run and a decision point that was due where the arbiter does not act (R82, R84), the depth outside a park, the fault cause outside FAULTED (R119). Rails that go off end the rail-good they reported (R106, log 8). The identity read opens with its opening mark, and every way out of IDENTIFYING closes it with its closing mark (R110, R113). -/
def Bay.enter (st : BayState) (b : Bay) : Bay :=
  { b with
    state := st
    mainRail := st.powered
    auxRail := st.powered && b.auxWanted
    moduleReset := st.inReset
    railGood := b.railGood && !(b.mainRail && !st.powered)
    timer := none
    identity := if st.inService then b.identity else none
    pollTimer := if st.inService then b.pollTimer else none
    owed := if st.inService then b.owed else 0
    forced := b.forced && st.arbitrates
    due := b.due && st.arbitrates
    depth := if st.hasDepth then b.depth else none
    cause := if st == .faulted then b.cause else .none
    idLine := if st == .identifying then [.openingMark] else if b.state == .identifying then b.idLine ++ [.closingMark] else b.idLine }

/-- The bus is free and the arbiter acts: no exchange is in progress and no unit is under way in ONLINE, PARKING or DRAINING (R82). -/
def Bay.busFree (b : Bay) : Bool := b.state.arbitrates && b.exchange.isNone && b.unit.isNone

/-- An event of R82's list has come: with the bus free it makes a decision point, which is due until the arbiter takes it; otherwise it makes none of its own (R82, log 14). -/
def Bay.callArbiter (b : Bay) : Bay := { b with due := b.due || b.busFree }

/-- Every lane CLOSED with no page, its flags no and its timers stopped (R73). -/
def closedLanes : Vector Lane 4 := Vector.replicate 4 Lane.shut

/-- What a removal, a bay reset and a fault do to the bay's bus: the exchange in progress is abandoned and no unit is under way (R69), the lanes are cleared (R73), the owed count and the timeout count are 0, the poll timer is stopped, the forced run is clear (Table 4-5), and the bay queue is empty (R62). -/
def Bay.clearBus (b : Bay) : Bay :=
  { b with lanes := closedLanes, exchange := none, unit := none, owed := 0, timeouts := 0, pollTimer := none, forced := false, queue := [] }

/-- Entering SEATING starts the debounce (R104). -/
def Bay.enterSeating (b : Bay) : Bay := { b.enter .seating with timer := some Config.debounceTime }

/-- Entering HELD starts the hold timer; a bay reset taken in HELD restarts it (R108). -/
def Bay.enterHeld (b : Bay) : Bay := { b.enter .held with timer := some Config.holdTime }

/-- Entering POWERING starts the rail timer; a rail-good already reported takes the bay on to HELD in the same event (R106). -/
def Bay.enterPowering (b : Bay) : Bay :=
  let b' : Bay := { b.enter .powering with timer := some Config.railTime }
  if b'.railGood then b'.enterHeld else b'

/-- Entering IDENTIFYING begins the identity read (R110). -/
def Bay.enterIdentifying (b : Bay) : Bay := b.enter .identifying

/-- Entering STARTING starts the ready timer with the ready timeout as it stands; a module ready already asserted takes the bay on to IDENTIFYING in the same event (R109). -/
def Bay.enterStarting (b : Bay) : Bay :=
  let b' : Bay := { b.enter .starting with timer := some (b.policy.readyTimeout * 1000) }
  if b'.moduleReady then b'.enterIdentifying else b'

/-- The effective poll interval in µs (R124). -/
def Bay.pollInterval (b : Bay) : Nat :=
  if b.policy.pollOverride == 0 then
    match b.identity with
    | some r => (if idPollInterval r == 0 then Config.defaultPollUnits else idPollInterval r) * Config.pollUnit
    | none => Config.defaultPollUnits * Config.pollUnit
  else b.policy.pollOverride * Config.pollUnit

/-- Entering ONLINE from IDENTIFYING with an accepted identity record (R112); a decision point comes with it (R82). -/
def Bay.enterOnline (r : IdentityRecord) (b : Bay) : Bay :=
  let b' : Bay := { b.enter .online with identity := some r, lanes := closedLanes, owed := 0, timeouts := 0, forced := false, lastStatus := zeroStatus }
  { b' with pollTimer := some b'.pollInterval }.callArbiter

/-! ### The identity line (R110, Table 6-3) -/

/-- Steps 1 to 3 of the identity read, up to the acknowledge slot of the offset phase. -/
def lineToOffset (acked : Bool) : List LineAct :=
  [.openingMark, .address Config.identityAddress .write true, .offset 0 acked]

/-- Steps 1 to 5, up to the acknowledge slot of the second address phase. -/
def lineToRead (acked : Bool) : List LineAct :=
  lineToOffset true ++ [.openingMark, .address Config.identityAddress .read acked]

/-- What stands on the line when the module leaves the slot of a phase unacknowledged: the read stops at that slot (R110). -/
def lineUnanswered : IdPhase → List LineAct
  | .addressWrite => [.openingMark, .address Config.identityAddress .write false]
  | .offset => lineToOffset false
  | .addressRead => lineToRead false

/-- Steps 1 to 6 of a read whose three slots were acknowledged: the part acknowledges bytes 0..30 and leaves byte 31 unacknowledged (R110). -/
def lineAnswered (r : IdentityRecord) : List LineAct :=
  lineToRead true ++ (List.finRange 32).map fun j => LineAct.data r[j] (decide (j.val < 31))

/-- The identity read has come as far as `acts`. -/
def Bay.readLine (acts : List LineAct) (b : Bay) : Bay := { b with idLine := acts }

/-- The lane count of the identity record held (R16). Without a record no unit runs; the value is then 1 (log 21). -/
def Bay.laneCount (b : Bay) : Nat := match b.identity with | some r => idLaneCount r | none => 1
/-- The dwell of the identity record held (R74, log 21). -/
def Bay.dwell (b : Bay) : Nat := match b.identity with | some r => idDwell r | none => 0
/-- The recovery of the identity record held (R75, log 21). -/
def Bay.recovery (b : Bay) : Nat := match b.identity with | some r => idRecovery r | none => 0
/-- The deep wake time of the identity record held (R134, log 21). -/
def Bay.deepWake (b : Bay) : Nat := match b.identity with | some r => idDeepWake r | none => 0
/-- The memory pages of the identity record held (R13). -/
def Bay.memoryPages (b : Bay) : Nat := match b.identity with | some r => idMemoryPages r | none => 0

/-- The condition of step 10 of admission and of a release from a hold list (R35, R54). -/
def Bay.takesRequests (b : Bay) : Bool :=
  (b.state == .online || b.state == .parking || b.state == .parked || b.state == .waking) && !b.drainRequested

/-- The bay is idle: no entry RUNNING or SUSPENDED and the bay queue empty (R82). The queue holds all of these. -/
def Bay.idle (b : Bay) : Bool := b.queue.isEmpty

/-! ### Lanes (4.2) -/

/-- Replace one lane record. -/
def Bay.setLane (l : LaneId) (x : Lane) (b : Bay) : Bay := { b with lanes := b.lanes.set l x }

/-- Issue an exchange: it is in progress, and its timer starts with the exchange timeout as it stands (R67, R68). -/
def Bay.issue (op : ExchangeOp) (b : Bay) : Bay := { b with exchange := some { op := op, timeout := b.policy.exchangeTimeout } }

/-- Issue SELECT of page `p` on lane `l`: the lane is OPENING with that page (R73). -/
def Bay.issueSelect (l : LaneId) (p : Nat) (b : Bay) : Bay :=
  (b.setLane l { Lane.shut with state := .opening, page := some p }).issue (.select l p)

/-- Issue RELEASE on lane `l`: the lane is CLOSING, its flags are cleared and its dwell timer is stopped (R73, R74). -/
def Bay.issueRelease (l : LaneId) (b : Bay) : Bay :=
  (b.setLane l { Lane.shut with state := .closing, page := b.lanes[l].page }).issue (.release l)

/-- A SELECT answered ACK: the lane is OPEN and its dwell timer runs; a dwell of 0 has run out at once (R73, R74). -/
def Bay.openLane (l : LaneId) (b : Bay) : Bay :=
  b.setLane l { Lane.shut with
    state := .opened
    page := b.lanes[l].page
    dwellExpired := b.dwell == 0
    dwellTimer := if b.dwell == 0 then none else some b.dwell }

/-- The recovery of a lane starts: the lane is CLOSING with its flags cleared; a recovery of 0 makes it CLOSED at once (R73, R75). -/
def Bay.startRecovery (l : LaneId) (b : Bay) : Bay :=
  if b.recovery == 0 then b.setLane l Lane.shut
  else b.setLane l { Lane.shut with state := .closing, page := b.lanes[l].page, recoveryTimer := some b.recovery }

/-- The release-all: release-pending on every OPEN lane that is not pinned (R80, R81). -/
def Bay.releaseAll (b : Bay) : Bay :=
  { b with lanes := tabulate 4 fun l =>
      if b.lanes[l].state == .opened && !b.lanes[l].pinned then { b.lanes[l] with releasePending := true } else b.lanes[l] }

/-- Every lane is CLOSED (R80). -/
def Bay.lanesClosed (b : Bay) : Bool := (List.finRange 4).all fun l => b.lanes[l].state == .closed

/-- The lowest lane whose deferred release may be issued: release-pending yes, dwell-expired yes, pinned no (R83 step 2). -/
def Bay.deferredLane (b : Bay) : Option LaneId :=
  (List.finRange 4).find? fun l => b.lanes[l].releasePending && b.lanes[l].dwellExpired && !b.lanes[l].pinned

/-! ### The unit under way (R76, R86, R97) -/

/-- What the end of an exchange means for the entry whose unit is under way. -/
inductive UnitResult where
  /-- The unit goes on. -/
  | going
  /-- The read half of a FETCH_ADD has completed, with this old value (R97). -/
  | fetched (old : List Byte) (carry : Bool)
  /-- The unit has completed, with the bytes kept from its reads (R21). -/
  | completed (bytes : List Byte)
  /-- The unit has failed (R21). -/
  | failed (status : Status)
  deriving DecidableEq, Repr

/-- Read exchange `j` of a unit (R17, R18, R19). -/
def UnitRun.readOp (u : UnitRun) (j : Nat) : ExchangeOp :=
  match u.place with
  | some _ => .mread (exchangeAddr u.addr u.width j) u.width
  | none => .pread (exchangeAddr u.addr u.width j) u.width

/-- Write exchange `j` of a unit (R17 to R20). -/
def UnitRun.writeOp (u : UnitRun) (j : Nat) : ExchangeOp :=
  let x := exchangeAddr u.addr u.width j
  match u.place with
  | some _ => .mwrite x u.width (writeData u.addr u.size u.width u.value x) (writeMask u.addr u.size u.width x)
  | none => .pwrite x u.width (writeData u.addr u.size u.width u.value x) (writeMask u.addr u.size u.width x)

/-- Issue read exchange `j` of the unit. -/
def Bay.issueRead (u : UnitRun) (j : Nat) (b : Bay) : Bay :=
  { b with unit := some { u with phase := .reading j } }.issue (u.readOp j)

/-- Issue write exchange `j` of the unit. -/
def Bay.issueWrite (u : UnitRun) (j : Nat) (b : Bay) : Bay :=
  { b with unit := some { u with phase := .writing j } }.issue (u.writeOp j)

/-- A FETCH_ADD pins its lane once the lane is OPEN with its page (R81). -/
def Bay.pinFor (u : UnitRun) (b : Bay) : Bay :=
  match u.dir, u.place with
  | .fetchAdd, some p => b.setLane p.lane { b.lanes[p.lane] with pinned := true }
  | _, _ => b

/-- The data exchanges of the unit begin (R18, R76, R97). -/
def Bay.startData (u : UnitRun) (b : Bay) : Bay :=
  match u.dir with
  | .write => (b.pinFor u).issueWrite u 0
  | .read => (b.pinFor u).issueRead u 0
  | .fetchAdd => (b.pinFor u).issueRead u 0

/-- The unit's SELECT is issued on its lane (R76). -/
def Bay.selectFor (u : UnitRun) (p : LanePlace) (b : Bay) : Bay :=
  { b with unit := some { u with phase := .selecting } }.issueSelect p.lane p.page

/-- The RELEASE of a displacement is issued (R76). -/
def Bay.releaseFor (u : UnitRun) (p : LanePlace) (b : Bay) : Bay :=
  { b with unit := some { u with phase := .releasing } }.issueRelease p.lane

/-- Begin a unit: its lane preparation, or its data exchanges where it needs none (R76). -/
def Bay.beginUnit (u : UnitRun) (b : Bay) : Bay :=
  match u.place with
  | none => b.startData u
  | some p =>
    match b.lanes[p.lane].state with
    | .closed => b.selectFor u p
    | .closing => { b with unit := some { u with phase := .awaitRecovery } }
    | .opening => { b with unit := some { u with phase := .awaitRecovery } }
    | .opened =>
      if b.lanes[p.lane].page == some p.page then
        (b.setLane p.lane { b.lanes[p.lane] with releasePending := false }).startData u
      else if b.lanes[p.lane].dwellExpired then b.releaseFor u p
      else { b with unit := some { u with phase := .awaitDwell } }

/-- The end of a unit: a pinned lane is no longer pinned, and under CLOSE a lane left OPEN gets release-pending (R79, R81). -/
def Bay.endUnit (u : UnitRun) (b : Bay) : Bay :=
  let b' : Bay := { b with unit := none, exchange := none }
  match u.place with
  | none => b'
  | some p =>
    let ln := b'.lanes[p.lane]
    b'.setLane p.lane { ln with
      pinned := false
      releasePending := if u.policy == .close && ln.state == .opened then true else ln.releasePending }

/-- The RELEASE of a displacement has been answered: recovery starts, and the SELECT follows at its end (R71, R76). -/
def Bay.afterRelease (u : UnitRun) (p : LanePlace) (b : Bay) : Bay :=
  let b' := b.startRecovery p.lane
  if b'.lanes[p.lane].state == .closed then b'.selectFor u p
  else { b' with unit := some { u with phase := .awaitRecovery } }

/-- The unit's exchange is answered ACK (Table 4-2). -/
def Bay.unitAck (u : UnitRun) (data : Word) (b : Bay) : Bay × UnitResult :=
  match u.phase, u.place with
  | .selecting, some p => ((b.openLane p.lane).startData u, .going)
  | .releasing, some p => (b.afterRelease u p, .going)
  | .reading j, _ =>
    let got := u.got ++ keptBytes u.addr u.size u.width (exchangeAddr u.addr u.width j) data
    if j + 1 < exchangeCount u.size u.width then (b.issueRead { u with got := got } (j + 1), .going)
    else match u.dir with
      | .fetchAdd =>
        (b.issueWrite { u with got := got, value := fetchNew u.size got u.value } 0, .fetched got (fetchCarry u.size got u.value))
      | .read => (b.endUnit u, .completed got)
      | .write => (b.endUnit u, .completed got)
  | .writing j, _ =>
    if j + 1 < exchangeCount u.size u.width then (b.issueWrite u (j + 1), .going)
    else (b.endUnit u, .completed u.got)
  | .awaitDwell, _ => (b, .going)
  | .awaitRecovery, _ => (b, .going)
  | .selecting, none => (b, .going)
  | .releasing, none => (b, .going)

/-- The unit's exchange is answered NAK (Table 4-2). -/
def Bay.unitNak (u : UnitRun) (b : Bay) : Bay × UnitResult :=
  match u.phase, u.place with
  | .selecting, some p => ((b.setLane p.lane Lane.shut).endUnit u, .failed .moduleNak)
  | .releasing, some p => (b.afterRelease u p, .going)
  | .reading _, _ => (b.endUnit u, .failed .moduleNak)
  | .writing _, _ => (b.endUnit u, .failed .moduleNak)
  | .awaitDwell, _ => (b, .going)
  | .awaitRecovery, _ => (b, .going)
  | .selecting, none => (b, .going)
  | .releasing, none => (b, .going)

/-- The unit's exchange has timed out: its lane, if it has one, is CLOSING with recovery running (Table 4-2, R77). -/
def Bay.unitTimeout (u : UnitRun) (b : Bay) : Bay × UnitResult :=
  match u.place with
  | some p => ((b.startRecovery p.lane).endUnit u, .failed .timeout)
  | none => (b.endUnit u, .failed .timeout)

/-- The dwell timer of lane `l` expires; a displacement that waited for it issues its RELEASE, and a release that was pending calls the arbiter (R74, R76, R82). -/
def Bay.dwellEnds (l : LaneId) (b : Bay) : Bay :=
  if b.lanes[l].state == .opened && b.lanes[l].dwellTimer.isSome then
    let b' := b.setLane l { b.lanes[l] with dwellExpired := true, dwellTimer := none }
    match b'.unit with
    | some u =>
      match u.phase, u.place with
      | .awaitDwell, some p => if p.lane == l then b'.releaseFor u p else b'
      | _, _ => b'
    | none => if b.lanes[l].releasePending then b'.callArbiter else b'
  else b

/-- The recovery timer of lane `l` expires: the lane is CLOSED, and a unit that waited for it issues its SELECT (R75, R76). -/
def Bay.recoveryEnds (l : LaneId) (b : Bay) : Bay :=
  if b.lanes[l].state == .closing && b.lanes[l].recoveryTimer.isSome then
    let b' := b.setLane l Lane.shut
    match b'.unit with
    | some u =>
      match u.phase, u.place with
      | .awaitRecovery, some p => if p.lane == l then b'.selectFor u p else b'
      | _, _ => b'
    | none => b'
  else b

/-! ### Park, wake and drain (6.7.3, 7.4) -/

/-- The wake timer ends: ONLINE, or DRAINING at once where a drain is requested, each with a decision point (R82, R116, R135). -/
def Bay.wakeEnds (b : Bay) : Bay :=
  let b' : Bay := { b.enter .online with timeouts := 0 }
  (if b'.drainRequested then { b'.enter .draining with drainRequested := false } else b').callArbiter

/-- Start the wake: WAKING with the wake timer of the depth; a wake of 0 ends in the same event (R134). -/
def Bay.startWake (b : Bay) : Bay :=
  let n := if b.depth == some .deep then b.deepWake else Config.lightWakeTime
  let b' := b.enter .waking
  if n == 0 then b'.wakeEnds else { b' with timer := some n }

/-- A PARKED bay with a wake cause starts its wake: work in the queue, owed polls full, or a drain requested (R134). -/
def Bay.wakeCheck (b : Bay) : Bay :=
  if b.state == .parked && (!b.queue.isEmpty || b.owed == Config.owedMax || b.drainRequested) then b.startWake else b

/-- The end condition of PARKING for the lanes (R133). -/
def Bay.parkLanesDone (b : Bay) : Bool :=
  if b.depth == some .deep then b.lanesClosed
  else (List.finRange 4).all fun l => !b.lanes[l].releasePending && b.lanes[l].state != .closing

/-- PARKING ends when no exchange is in progress and its lanes are done; a wake cause that holds then starts the wake at once (R133, R134). -/
def Bay.parkSettle (b : Bay) : Bay :=
  if b.state == .parking && b.exchange.isNone && b.parkLanesDone then (b.enter .parked).wakeCheck else b

/-- A DRAINING bay makes the release-all, which calls the arbiter where it finds a lane to release (R80, R82). -/
def Bay.drainRelease (b : Bay) : Bay := if b.releaseAll.lanes = b.lanes then b else b.releaseAll.callArbiter

/-- A DRAINING bay whose queue is empty makes the release-all, and ends its drain once every lane is CLOSED and no exchange is in progress (R117, log 23). -/
def Bay.drainSettle (b : Bay) : Bay :=
  if b.state == .draining && b.idle then
    if b.lanesClosed && b.exchange.isNone then b.enter .unpowered else b.drainRelease
  else b

/-- What a bay does by itself at the end of an event: the park or the drain that can end, ends (R117, R133). -/
def Bay.settle (b : Bay) : Bay := b.parkSettle.drainSettle

/-- Place an entry at the tail of the bay queue; placed in an empty queue it calls the arbiter, and in PARKED its arrival starts the wake (R42, R82, R134). -/
def Bay.enqueue (e : EntryId) (b : Bay) : Bay :=
  let b' : Bay := { b with queue := b.queue ++ [e] }
  (if b.idle then b'.callArbiter else b').wakeCheck

/-! ### The arbiter's choice between polls, releases and units (R83) -/

/-- The forced run flag as a decision point leaves it: set at an owed count of 8, cleared at 0 (R84). -/
def Bay.forcedRun (b : Bay) : Bool :=
  if b.owed == Config.owedMax then true else if b.owed == 0 then false else b.forced

/-- What the arbiter of a bay does next (R83): nothing of its own, so that the entries are looked at, or an exchange. -/
inductive ArbiterStep where
  | forcedPoll
  | deferredRelease (lane : LaneId)
  | entries
  deriving DecidableEq, Repr

/-- Steps 1 and 2 of R83, and otherwise the entries. -/
def Bay.arbiterStep (b : Bay) : ArbiterStep :=
  if b.forcedRun then .forcedPoll
  else match b.deferredLane with
    | some l => .deferredRelease l
    | none => .entries

/-- A decision point is due, and the bus is free (R82). -/
def Bay.atDecision (b : Bay) : Bool := b.busFree && b.due

/-! ### Removal, reset and fault, seen from the bay (R118, R119, R121) -/

/-- The bay's part of a removal (R121). -/
def Bay.remove (b : Bay) : Bay := { b.clearBus.enter .empty with drainRequested := false }

/-- The bay's part of an accepted RESET (R118). -/
def Bay.restart (b : Bay) : Bay := { b.clearBus with drainRequested := false }.enterHeld

/-- The bay's part of entering FAULTED (R119). -/
def Bay.fault (c : FaultCause) (b : Bay) : Bay := { b.clearBus.enter .faulted with cause := c, drainRequested := false }

end Sys2Proof.Machine
end

