-- ==== Sys2Proof/Machine/Flags.lean ====
section
/-! DEFINITION. What a response carries: its status code, its flags, its units done, its result word and its payload, and the words of the three outbound packets (R101, R164, Tables 9-4 to 9-7). -/

namespace Sys2Proof.Machine

/-- The status codes (Table 9-5). -/
def Status.code : Status → Nat
  | .ok => 0
  | .malformed => 1
  | .queueFull => 2
  | .domainOff => 3
  | .noAperture => 4
  | .span => 5
  | .wrongKind => 6
  | .level => 7
  | .writeProtect => 8
  | .portDenied => 9
  | .railOff => 10
  | .bayNotReady => 11
  | .range => 12
  | .moduleNak => 13
  | .timeout => 14
  | .moduleGone => 15
  | .bayReset => 16
  | .bayFaulted => 17
  | .noDescriptor => 18
  | .nothingInService => 19
  | .badRecord => 20
  | .badState => 21

/-- The kind code of a RESPONSE packet (Table 9-5). -/
def responseCode : Nat := 14
/-- The kind code of a NOTICE packet (Table 9-5). -/
def noticeCode : Nat := 15

/-- The flags as bits 20..16 of header word 1 (Table 9-4). -/
def Flags.word (f : Flags) : List (Nat × Nat) :=
  [(bitVal f.carry, 16), (bitVal f.spurious, 17), (bitVal f.defect, 18), (bitVal f.untracked, 19), (bitVal f.postedFault, 20)]

/-- The kinds whose response carries the data buffer: read data, an old value, a claim or a control record (Tables 5-4, 9-6). -/
def ReqKind.returnsBuffer : ReqKind → Bool
  | .read | .blockRead | .fetchAdd | .claim | .ctlRead => true
  | _ => false

/-- The response of an entry as assembled when it goes DONE (R46, R101, R164). -/
def Entry.assemble (e : Entry) : Response :=
  { domain := e.domain, tag := e.tag, status := e.status,
    unitsDone := if e.kind.isBlock then e.unitsDone else 0,
    flags := { e.flags with carry := e.carry },
    result := e.result,
    payload := if e.kind.returnsBuffer then e.buffer else [] }

/-- The response of a posted write, made ready at its admission: OK with an empty payload (R47, R164). -/
def Entry.postedResponse (e : Entry) : Response :=
  { domain := e.domain, tag := e.tag, status := .ok, unitsDone := 0, flags := {}, result := 0, payload := [] }

/-- The words of a response packet (Table 9-4). -/
def Response.words (r : Response) : List Word :=
  packFields [(responseCode, 28), (r.domain, 25), (r.tag.toNat, 17), (r.payload.length, 7), (r.status.code, 2)]
    :: packFields (r.flags.word ++ [(r.unitsDone, 0)])
    :: r.result :: r.payload

/-- The words of a refusal made by the receiver: a response with units done 0, no flag, result word 0 and no payload (R164). -/
def UplinkRefusal.words (r : UplinkRefusal) : List Word :=
  Response.words { domain := r.domain, tag := r.tag, status := r.status, unitsDone := 0, flags := {}, result := 0, payload := [] }

/-- The words of a SIGNAL notice (R147, Table 9-4). -/
def noticeWords (d : DomainId) (priority : Nat) : List Word :=
  [packFields [(noticeCode, 28), (d, 25)], packFields [(priority, 0)], 0]

/-- The claim payload (Table 9-7). -/
def claimPayload (vector source priority : Nat) (handler : Word) : List Word :=
  [packFields [(vector, 0), (source, 8), (priority, 16)], handler]

end Sys2Proof.Machine
end

