-- ==== Sys2Proof/Machine/Packets.lean ====
section
/-! DEFINITION. The inbound packet: its header fields (Table 9-3), the form check (R160, Tables 9-1 and 9-2) and the request it makes. -/

namespace Sys2Proof.Machine

/-- The request kind of a kind code; RESPONSE and NOTICE are none (Table 9-5, Table 9-1). -/
def ReqKind.ofCode : Nat → Option ReqKind
  | 0 => some .read
  | 1 => some .write
  | 2 => some .blockRead
  | 3 => some .blockWrite
  | 4 => some .fetchAdd
  | 5 => some .sync
  | 6 => some .claim
  | 7 => some .complete
  | 8 => some .threshold
  | 9 => some .message
  | 10 => some .clearService
  | 11 => some .ctlRead
  | 12 => some .ctlWrite
  | 13 => some .bayAction
  | _ => none

/-- The size in bytes of a size code; 0 for NONE and for the codes 5 to 7 (Table 9-3). -/
def sizeOfCode : Nat → Nat
  | 1 => 1
  | 2 => 2
  | 3 => 4
  | 4 => 8
  | _ => 0

/-- The step of a step code (Table 9-3). -/
def Stride.ofCode : Nat → Stride
  | 1 => .increment
  | 2 => .hold
  | 3 => .decrement
  | _ => .none

/-- The kind code of a header (Table 9-3). -/
def headerKind (w0 : Word) : Nat := bits w0 28 4
/-- The domain of a header (Table 9-3). -/
def headerDomain (w0 : Word) : DomainId := Fin.ofNat 8 (bits w0 25 3)
/-- The tag of a header (Table 9-3). -/
def headerTag (w0 : Word) : Byte := BitVec.ofNat 8 (bits w0 17 8)
/-- The payload length field of a header (Table 9-3). -/
def headerLength (w0 : Word) : Nat := bits w0 7 10
/-- The size code of a header (Table 9-3). -/
def headerSizeCode (w0 : Word) : Nat := bits w0 4 3
/-- The step of a header (Table 9-3). -/
def headerStride (w0 : Word) : Stride := Stride.ofCode (bits w0 2 2)
/-- The destination mask of a header (Table 9-3). -/
def headerMask (w2 : Word) : Byte := BitVec.ofNat 8 (bits w2 24 8)
/-- The auxiliary value of a header (Table 9-3). -/
def headerAux (w2 : Word) : Nat := bits w2 16 8
/-- The count of a header (Table 9-3). -/
def headerCount (w2 : Word) : Nat := bits w2 0 9

/-- The payload length Table 9-2 gives a kind; the length of a CTL_WRITE is checked at its effect. -/
def tablePayload (k : ReqKind) (size count : Nat) : Nat :=
  match k with
  | .write | .fetchAdd => if size == 8 then 2 else 1
  | .blockWrite => (count * size + 3) / 4
  | _ => 0

/-- The MALFORMED conditions of Table 9-1 for a packet of kind `k`. -/
def formFails (k : ReqKind) (w0 w1 w2 : Word) (payload : List Word) : Bool :=
  let len := headerLength w0
  let code := headerSizeCode w0
  let size := sizeOfCode code
  let count := headerCount w2
  decide (Config.payloadMax < len)
    || payload.length != len
    || (k != .ctlWrite && len != tablePayload k size count)
    || (k == .ctlWrite && len == 0)
    || (k.isData && size == 0)
    || (k == .fetchAdd && (code == 1 || code == 2))
    || (!k.isData && code != 0)
    || (k.isData && w1.toNat % size != 0)
    || (k.isBlock && (count == 0 || decide (256 < count)))
    || (k.isBlock && headerStride w0 == .none)
    || (!k.isBlock && headerStride w0 != .none)
    || (k == .threshold && decide (15 < headerAux w2))
    || (k == .message && decide (3 < headerAux w2))

/-- The request a packet of good form makes (R160, R161). -/
def requestOf (k : ReqKind) (w0 w1 w2 : Word) (payload : List Word) : Request :=
  { kind := k, domain := headerDomain w0, tag := headerTag w0, size := sizeOfCode (headerSizeCode w0),
    stride := headerStride w0, word1 := w1, mask := headerMask w2, aux := BitVec.ofNat 8 (headerAux w2),
    count := headerCount w2, payload := payload }

/-- The request in a packet of three words or more, or none where the packet is MALFORMED (R160). -/
def parseRequest (w0 w1 w2 : Word) (payload : List Word) : Option Request :=
  match ReqKind.ofCode (headerKind w0) with
  | some k => if formFails k w0 w1 w2 payload then none else some (requestOf k w0 w1 w2 payload)
  | none => none

/-- The refusal of a packet with this header word 0 (R160, R161). -/
def refusalOf (w0 : Word) (st : Status) : UplinkRefusal :=
  { kindCode := BitVec.ofNat 4 (headerKind w0), domain := headerDomain w0, tag := headerTag w0, status := st }

/-! ### Header word 1 of control requests and bay actions (Table 9-3) -/

/-- The record group code. -/
def Request.group (r : Request) : Nat := bits r.word1 24 8
/-- The record index. -/
def Request.index (r : Request) : Nat := bits r.word1 0 16
/-- The bay of a BAY_ACTION selector. -/
def Request.actionBay (r : Request) : BayId := Fin.ofNat 8 (bits r.word1 8 3)
/-- The action code of a BAY_ACTION selector. -/
def Request.action (r : Request) : Nat := bits r.word1 0 4

end Sys2Proof.Machine
end

