-- ==== Sys2Proof/Machine/Records.lean ====
section
/-! DEFINITION. The control records: their groups (Table 10-1), and how each is laid out in words (Tables 9-8, 9-9, 10-2 to 10-5). A function `…OfWords` answers none where the record is refused BAD_RECORD. -/

namespace Sys2Proof.Machine

/-! ### Groups -/

/-- What Table 10-1 gives a record group: whether CTL_WRITE may write it, how many indices it has, and its length in words. -/
structure GroupInfo where
  writable : Bool
  indices  : Nat
  length   : Nat
  deriving DecidableEq, Repr

/-- The record groups by their codes (Tables 9-5, 10-1). -/
def groupInfo : Nat → Option GroupInfo
  | 1 => some ⟨true, 32, 4⟩      -- APERTURE
  | 2 => some ⟨true, 8, 1⟩       -- DOMAIN
  | 3 => some ⟨true, 64, 8⟩      -- GRANT
  | 4 => some ⟨true, 68, 1⟩      -- ROUTE
  | 5 => some ⟨true, 256, 2⟩     -- DESCRIPTOR
  | 6 => some ⟨true, 1, 1⟩       -- DESC_LIMIT
  | 7 => some ⟨true, 8, 2⟩       -- BAY_POLICY
  | 8 => some ⟨false, 8, 6⟩      -- BAY_STATUS
  | 9 => some ⟨false, 8, 9⟩      -- BAY_IDENTITY
  | 10 => some ⟨false, 8, 1⟩     -- DOMAIN_STATUS
  | 11 => some ⟨false, 8, 16⟩    -- EVENT_STATUS
  | 12 => some ⟨false, 1, 4⟩     -- EVENT_PENDING
  | 13 => some ⟨false, 1, 3⟩     -- CAPTURE
  | 14 => some ⟨false, 1, 2⟩     -- DEVICE_ID
  | _ => none

/-- The conditions of R166 on a CTL_READ: the group exists and the index is in its range. -/
def readable (r : Request) : Bool :=
  match groupInfo r.group with
  | some g => decide (r.index < g.indices)
  | none => false

/-- The conditions of R166 on a CTL_WRITE: the group is writable, the index in its range and the payload of its length. -/
def writable (r : Request) : Bool :=
  match groupInfo r.group with
  | some g => g.writable && decide (r.index < g.indices) && r.payload.length == g.length
  | none => false

/-! ### Aperture record (Table 9-8) -/

/-- The width of a width code; code 3 is none (Table 9-8). -/
def Width.ofCode : Nat → Option Width
  | 0 => some .w8
  | 1 => some .w16
  | 2 => some .w32
  | _ => none

/-- The width code of a width (Table 9-8). -/
def Width.code : Width → Nat
  | .w8 => 0
  | .w16 => 1
  | .w32 => 2

/-- The words of an aperture record. -/
def Aperture.words (a : Aperture) : List Word :=
  [a.first, a.last, a.offset,
   packFields [(bitVal a.valid, 0), (bitVal (a.kind == .port), 1), (a.bay, 2), (a.width.code, 5), (bitVal (a.policy == .close), 7),
     (bitVal a.posting, 8), (bitVal (a.ordering == .relaxed), 9), (bitVal a.writeProtect, 10), (bitVal a.auxGated, 11),
     (a.level, 12), (a.mask.toNat, 16)]]

/-- The conditions of Table 1-2, but for condition 6 on the width code. -/
def Aperture.sound (a : Aperture) : Bool :=
  let size := a.last.toNat + 1 - a.first.toNat
  decide (a.first.toNat ≤ a.last.toNat) &&
  match a.kind with
  | .memory =>
    a.first.toNat % Config.pageBytes == 0 && (a.last.toNat + 1) % Config.pageBytes == 0
      && a.offset.toNat % Config.pageBytes == 0 && decide (a.offset.toNat + size ≤ Config.memorySpace)
  | .port =>
    a.first.toNat % Config.groupBytes == 0 && (a.last.toNat + 1) % Config.groupBytes == 0
      && a.offset.toNat % Config.groupBytes == 0 && decide (a.offset.toNat + size ≤ Config.portSpace)
      && a.policy == .hold

/-- The record of four words with a given width (Table 9-8). -/
def apertureFields (w0 w1 w2 w3 : Word) (width : Width) : Aperture :=
  { valid := bit w3 0, kind := if bit w3 1 then .port else .memory, first := w0, last := w1, offset := w2,
    bay := Fin.ofNat 8 (bits w3 2 3), width := width, policy := if bit w3 7 then .close else .hold, posting := bit w3 8,
    ordering := if bit w3 9 then .relaxed else .strict, writeProtect := bit w3 10, auxGated := bit w3 11,
    level := Fin.ofNat 4 (bits w3 12 2), mask := BitVec.ofNat 8 (bits w3 16 8) }

/-- The record a CTL_WRITE of group APERTURE puts in place (R3, R4): the cleared record where the payload is not valid. -/
def apertureOfWords : List Word → Option Aperture
  | [w0, w1, w2, w3] =>
    if !bit w3 0 then some Aperture.cleared
    else match Width.ofCode (bits w3 5 2) with
      | some w => if (apertureFields w0 w1 w2 w3 w).sound then some (apertureFields w0 w1 w2 w3 w) else none
      | none => none
  | _ => none

/-! ### Domain record (Table 10-2) -/

/-- The words of a domain record. -/
def DomainRec.words (d : DomainRec) : List Word :=
  [packFields [(bitVal d.enabled, 0), (d.level, 4), (d.spurious, 8)]]

/-- The domain record of a payload (R25). -/
def domainOfWords : List Word → Option DomainRec
  | [w] => some { enabled := bit w 0, level := Fin.ofNat 4 (bits w 4 2), spurious := Fin.ofNat 256 (bits w 8 8) }
  | _ => none

/-! ### Grant record (R28) -/

/-- The grant record of a payload of eight words (R28). -/
def grantOfWords (ws : List Word) : Option (Vector Word 8) :=
  if h : ws.length = 8 then some ⟨ws.toArray, by simpa using h⟩ else none

/-! ### Route, descriptor and limit (Table 9-9) -/

/-- The words of a route record. -/
def Route.words (r : Route) : List Word :=
  [packFields [(bitVal r.masked, 0), (r.priority, 4), (r.vector, 8), (r.destination, 16)]]

/-- The route record of a payload (R140). -/
def routeOfWords : List Word → Option Route
  | [w] => some { masked := bit w 0, priority := Fin.ofNat 16 (bits w 4 4), vector := Fin.ofNat 256 (bits w 8 8),
                  destination := Fin.ofNat 8 (bits w 16 3) }
  | _ => none

/-- The words of a descriptor record. -/
def Descriptor.words (d : Descriptor) : List Word :=
  [packFields [(bitVal d.present, 0), (bitVal (d.kind == .untracked), 1), (d.messageLevel, 4)], d.handler]

/-- The descriptor record of a payload (R141). -/
def descriptorOfWords : List Word → Option Descriptor
  | [w0, w1] => some { present := bit w0 0, kind := if bit w0 1 then .untracked else .tracked,
                       messageLevel := Fin.ofNat 4 (bits w0 4 2), handler := w1 }
  | _ => none

/-- The descriptor limit of a payload; above 256 it is refused (R141). -/
def limitOfWords : List Word → Option Nat
  | [w] => if w.toNat ≤ 256 then some w.toNat else none
  | _ => none

/-! ### Bay policy record (Table 10-2) -/

/-- The words of a bay policy record with its free level. -/
def BayPolicy.words (p : BayPolicy) (free : Level) : List Word :=
  [packFields [(bitVal (p.power == .auto), 0), (free, 1), (p.readyTimeout, 4), (p.exchangeTimeout, 16)],
   packFields [(p.pollOverride, 0), (p.sense.toNat, 16)]]

/-- The bay policy record of a payload with its free level; a ready timeout of 0 or above 1000 and an exchange timeout of 0 are refused (R122). -/
def policyOfWords : List Word → Option (BayPolicy × Level)
  | [w0, w1] =>
    let ready := bits w0 4 10
    let exch := bits w0 16 8
    if ready == 0 || decide (1000 < ready) || exch == 0 then none
    else some ({ power := if bit w0 0 then .auto else .manual, readyTimeout := ready, exchangeTimeout := exch,
                 pollOverride := bits w1 0 16, sense := BitVec.ofNat 8 (bits w1 16 8) }, Fin.ofNat 4 (bits w0 1 2))
  | _ => none

/-! ### Read-only records of a bay (Tables 10-3, 10-4) -/

/-- The state code (Table 10-3). -/
def BayState.code : BayState → Nat
  | .empty => 0
  | .seating => 1
  | .unpowered => 2
  | .powering => 3
  | .held => 4
  | .starting => 5
  | .identifying => 6
  | .online => 7
  | .parking => 8
  | .parked => 9
  | .waking => 10
  | .draining => 11
  | .faulted => 12

/-- The fault cause code (Table 10-3). -/
def FaultCause.code : FaultCause → Nat
  | .none => 0
  | .railTimeout => 1
  | .readyTimeout => 2
  | .idNoAnswer => 3
  | .identityBad => 4
  | .exchangeTimeouts => 5
  | .moduleNotReady => 6

/-- The lane state code (Table 10-3). -/
def LaneState.code : LaneState → Nat
  | .closed => 0
  | .opening => 1
  | .opened => 2
  | .closing => 3

/-- One lane record as a word (Table 10-3). That the page field reads as 0 where the lane has no page is the model's choice (log 36). -/
def Lane.word (l : Lane) : Word :=
  packFields [(l.state.code, 0), (bitVal l.dwellExpired, 2), (bitVal l.releasePending, 3), (bitVal l.pinned, 4),
    (bitVal l.page.isSome, 5), (l.page.getD 0, 16)]

/-- The BAY_STATUS record (R123, R168, Table 10-3). The queue holds exactly the QUEUED, RUNNING and SUSPENDED entries of the bay. -/
def Bay.statusWords (b : Bay) : List Word :=
  [packFields [(b.state.code, 0), (bitVal (b.depth == some .deep), 4), (b.cause.code, 5), (bitVal b.mainRail, 8), (bitVal b.auxRail, 9),
     (bitVal b.auxWanted, 10), (bitVal b.drainRequested, 11), (b.owed, 12), (b.timeouts, 16), (b.queue.length, 18)],
   packFields [(bitVal b.lastStatus.ready, 0), (bitVal b.lastStatus.attention, 1), (bitVal b.lastStatus.supplyWarn, 2),
     (bitVal b.lastStatus.supplyFail, 3), (b.lastStatus.code.toNat, 8)],
   b.lanes[0].word, b.lanes[1].word, b.lanes[2].word, b.lanes[3].word]

/-- The BAY_IDENTITY record (R123, R168, Table 10-4): nine words of 0 while the bay holds no identity record. -/
def Bay.identityWords (b : Bay) : List Word :=
  match b.identity with
  | some r => packFields [(1, 0)] :: wordsOfBytes r.toList
  | none => List.replicate 9 0

/-! ### Error capture record (Tables 10-5, 10-6) -/

/-- The kind code of an offer (Table 10-6). -/
def OfferKind.code : OfferKind → Nat
  | .moduleNak => 1
  | .timeout => 2
  | .railOff => 3
  | .moduleGone => 4
  | .bayReset => 5
  | .bayFaulted => 6
  | .bayNotReady => 7
  | .pollFailed => 8
  | .descriptorMissing => 9
  | .runtPacket => 10
  | .railTimeout => 11
  | .readyTimeout => 12
  | .idNoAnswer => 13
  | .identityBad => 14
  | .exchangeTimeouts => 15
  | .moduleNotReady => 16

/-- The CAPTURE record: a field whose known bit is 0 holds 0, and an invalid record is all 0 (R170, Table 10-5). -/
def captureWords : Option CaptureRecord → List Word
  | none => [0, 0, 0]
  | some c =>
    let who := c.offer.who.getD (0, 0)
    let xl := c.offer.xlat.getD (0, 0)
    [packFields [(1, 0), (c.offer.kind.code, 1), (bitVal c.offer.who.isSome, 6), (who.1, 7), (bitVal c.offer.bay.isSome, 10),
       ((c.offer.bay.getD 0), 11), (bitVal c.offer.xlat.isSome, 14), (c.more, 16)],
     packFields [(who.2.toNat, 0), (xl.1, 8)],
     BitVec.ofNat 32 xl.2]

end Sys2Proof.Machine
end

