-- ==== Sys2Proof/Machine/Ops.lean ====
section
/-! DEFINITION. The operations over the whole part that its blocks share: updating one bay, one entry, one domain's delivery state; offering an error (10.4); pending latches, active marks and re-examination (Chapter 8); making responses ready, placing, ending, aborting, releasing and freeing entries (Chapter 3); the faults, resets and removals of a bay. -/

namespace Sys2Proof.Machine

/-! ### One record at a time -/

/-- Update one bay. -/
def State.mapBay (b : BayId) (f : Bay → Bay) (s : State) : State := { s with bays := s.bays.set b (f s.bays[b]) }

/-- Update one tracker entry. -/
def State.mapEntry (e : EntryId) (f : Entry → Entry) (s : State) : State :=
  { s with tracker := { s.tracker with entries := s.tracker.entries.set e (f s.tracker.entries[e]) } }

/-- Update one domain's delivery state. -/
def State.mapDelivery (d : DomainId) (f : Delivery → Delivery) (s : State) : State :=
  { s with events := { s.events with delivery := s.events.delivery.set d (f s.events.delivery[d]) } }

/-- Every domain. -/
def allDomains : List DomainId := [0, 1, 2, 3, 4, 5, 6, 7]
/-- Every bay. -/
def allBays : List BayId := [0, 1, 2, 3, 4, 5, 6, 7]

/-! ### Error capture (R171) -/

/-- Offer an error: it fills an invalid record, or raises the more-count of a valid one, which stays at 255 (R171). -/
def State.offer (o : Offer) (s : State) : State :=
  match s.capture with
  | none => { s with capture := some { offer := o, more := 0 } }
  | some c => { s with capture := some { c with more := if c.more < Config.moreMax then c.more + 1 else c.more } }

/-- The offer kind of a posted write's failure status (Table 10-6). A posted write fails with no other status (R49). -/
def Status.offerKind : Status → OfferKind
  | .moduleNak => .moduleNak
  | .timeout => .timeout
  | .railOff => .railOff
  | .moduleGone => .moduleGone
  | .bayReset => .bayReset
  | .bayFaulted => .bayFaulted
  | _ => .bayNotReady

/-- The offer kind of a fault cause (Table 10-6). -/
def FaultCause.offerKind : FaultCause → OfferKind
  | .railTimeout => .railTimeout
  | .readyTimeout => .readyTimeout
  | .idNoAnswer => .idNoAnswer
  | .identityBad => .identityBad
  | .exchangeTimeouts => .exchangeTimeouts
  | .moduleNotReady => .moduleNotReady
  | .none => .moduleNotReady

/-! ### Sources, latches and marks (8.1) -/

/-- The number of a condition kind (Table 7-3). -/
def CondKind.index : CondKind → Fin 8
  | .presence => 0
  | .online => 1
  | .attention => 2
  | .supplyWarn => 3
  | .supplyFail => 4
  | .bayFault => 5
  | .postedFault => 6
  | .pollOverrun => 7

/-- Bay source 8 × b + k (R137). -/
def baySource (b : BayId) (k : Fin 8) : Fin 64 := ⟨8 * b.val + k.val, by omega⟩

/-- The place of item (c, e) in the message vectors (Table 10-4). -/
def msgIndex (c : Fin 4) (e : DomainId) : Fin 32 := ⟨8 * c.val + e.val, by omega⟩

/-- The source number of an item (R137). -/
def Item.source : Item → Fin 68
  | .bay s => ⟨s.val, by omega⟩
  | .msg c _ => ⟨64 + c.val, by omega⟩

/-- The item of a source on the list of domain `d` (R143). -/
def itemOf (d : DomainId) (s : Fin 68) : Item :=
  if h : s.val < 64 then .bay ⟨s.val, h⟩ else .msg ⟨s.val - 64, by omega⟩ d

/-- The pending latch of an item (R137). -/
def EventUnit.isPending (u : EventUnit) : Item → Bool
  | .bay s => u.bayPending[s]
  | .msg c e => u.msgPending[msgIndex c e]

/-- Set or clear the pending latch of an item. -/
def EventUnit.setPending (it : Item) (v : Bool) (u : EventUnit) : EventUnit :=
  match it with
  | .bay s => { u with bayPending := u.bayPending.set s v }
  | .msg c e => { u with msgPending := u.msgPending.set (msgIndex c e) v }

/-- The active mark of an item (R137). -/
def EventUnit.isActive (u : EventUnit) : Item → Bool
  | .bay s => u.bayActive[s]
  | .msg c e => u.msgActive[msgIndex c e]

/-- Set or clear the active mark of an item. -/
def EventUnit.setActive (it : Item) (v : Bool) (u : EventUnit) : EventUnit :=
  match it with
  | .bay s => { u with bayActive := u.bayActive.set s v }
  | .msg c e => { u with msgActive := u.msgActive.set (msgIndex c e) v }

/-! ### Deliverability and notices (8.4) -/

/-- The domain an item is routed to: the destination of a bay source's route, or a message item's own domain (R144). -/
def EventUnit.routedTo (u : EventUnit) : Item → DomainId
  | .bay s => u.routes[Item.source (.bay s)].destination
  | .msg _ e => e

/-- Priority `p` exceeds the top of an in-service list, or the list is empty (R144). -/
def exceedsTop (p : Fin 16) : List InService → Bool
  | [] => true
  | t :: _ => decide (t.priority < p)

/-- The seven conditions of R144. -/
def State.deliverable (s : State) (d : DomainId) (it : Item) : Bool :=
  let r := s.events.routes[it.source]
  let y := s.events.delivery[d]
  s.events.isPending it
    && s.events.routedTo it == d
    && !r.masked
    && decide (1 ≤ r.priority) && decide (y.threshold < r.priority)
    && exceedsTop r.priority y.inService
    && !s.events.isActive it
    && s.tables.domains[d].enabled

/-- The items that can be routed to a domain, lowest source first (R137). -/
def itemsOf (d : DomainId) : List Item :=
  (List.finRange 64).map Item.bay ++ (List.finRange 4).map fun c => Item.msg c d

/-- The better of two items for delivery: the greater priority; a tie goes to the one found first, which has the lower source (R144). -/
def State.better (s : State) (best : Option Item) (it : Item) : Option Item :=
  match best with
  | none => some it
  | some b => if s.events.routes[b.source].priority < s.events.routes[it.source].priority then some it else some b

/-- The highest deliverable item of a domain (R144). -/
def State.highest (s : State) (d : DomainId) : Option Item :=
  ((itemsOf d).filter (s.deliverable d)).foldl s.better none

/-- Re-examine a domain: a notice is made ready if it has a deliverable item and its signal flag is clear (R145, R146). -/
def State.reexamine (d : DomainId) (s : State) : State :=
  if (s.highest d).isSome && !s.events.delivery[d].signal then s.mapDelivery d fun y => { y with signal := true, notice := true }
  else s

/-- Re-examine several domains. -/
def State.reexamineAll (ds : List DomainId) (s : State) : State := ds.foldl (fun s d => s.reexamine d) s

/-- Set the latch of an item; its domain is re-examined (R138, R139, R145). -/
def State.latch (it : Item) (s : State) : State :=
  { s with events := s.events.setPending it true }.reexamine (s.events.routedTo it)

/-- A rise of kind `k` at bay `b`, gated by the bay's sense enable (R131, R138). -/
def State.raise (b : BayId) (k : CondKind) (s : State) : State :=
  if s.bays[b].policy.sense.getLsbD k.index then s.latch (.bay (baySource b k.index)) else s

/-! ### Views of the tracker (3.2, 3.5) -/

/-- The admission list of `d`: its entries in use, in the order taken (R44). -/
def Tracker.admissionList (t : Tracker) (d : DomainId) : List EntryId :=
  t.taken.filter fun e => t.entries[e].domain == d

/-- A posted entry whose bay work has not ended (R45). -/
def Entry.postedOpen (e : Entry) : Bool :=
  e.posted && (e.state == .held || e.state == .queued || e.state == .running || e.state == .suspended)

/-- The posted set of `d`, in the order taken (R45). -/
def Tracker.postedSet (t : Tracker) (d : DomainId) : List EntryId :=
  t.taken.filter fun e => t.entries[e].domain == d && t.entries[e].postedOpen

/-- The entry is HELD in the hold list of (d, b) (R52). -/
def Entry.heldFor (e : Entry) (d : DomainId) (b : BayId) : Bool :=
  e.state == .held && e.domain == d && (match e.xlat with | some x => x.bay == b | none => false)

/-- The hold list of (d, b), in the order taken (R52). -/
def Tracker.holdList (t : Tracker) (d : DomainId) (b : BayId) : List EntryId :=
  t.taken.filter fun e => t.entries[e].heldFor d b

/-- The entries taken before `e` (R44). -/
def Tracker.before (t : Tracker) (e : EntryId) : List EntryId := t.taken.takeWhile (· != e)

/-- The posted set of `e`'s domain holds an entry taken before `e` (R51, R53). -/
def Tracker.earlierPosted (t : Tracker) (e : EntryId) : Bool :=
  (t.before e).any fun x => t.entries[x].domain == t.entries[e].domain && t.entries[x].postedOpen

/-- An entry of the same domain and bay, taken before `e`, is HELD (R51, R53). -/
def Tracker.earlierHeld (t : Tracker) (e : EntryId) (b : BayId) : Bool :=
  (t.before e).any fun x => t.entries[x].heldFor t.entries[e].domain b

/-- Condition (a): `e` is not posted, its ordering is STRICT, and an earlier posted write of its domain is incomplete (R51). -/
def Tracker.strictHold (t : Tracker) (e : EntryId) (x : Translation) : Bool :=
  !t.entries[e].posted && x.ordering == .strict && t.earlierPosted e

/-! ### Responses and freeing (R43, R60) -/

/-- Make a response ready: it joins the tail of the response order with the next completion sequence (R60). -/
def State.makeReady (e : EntryId) (r : Response) (s : State) : State :=
  let s' := s.mapEntry e fun x => { x with response := some r, seq := some s.tracker.nextSeq }
  { s' with tracker := { s'.tracker with order := s'.tracker.order ++ [e], nextSeq := s'.tracker.nextSeq + 1 } }

/-- Free an entry: it leaves every list of the tracker and becomes FREE (R43). -/
def State.freeEntry (e : EntryId) (s : State) : State :=
  let s' := s.mapEntry e fun _ => Entry.blank
  { s' with tracker := { s'.tracker with taken := s'.tracker.taken.filter (· != e), order := s'.tracker.order.filter (· != e) } }

/-- Take an entry out of the queue of bay `b` (R58). -/
def State.dequeue (b : BayId) (e : EntryId) (s : State) : State :=
  s.mapBay b fun y => { y with queue := y.queue.filter (· != e) }

/-! ### The end of an entry's work (R49, R50, R58) -/

/-- The offer of a failed posted write (R50). -/
def Entry.failureOffer (x : Entry) (st : Status) : Offer :=
  { kind := st.offerKind, who := some (x.domain, x.tag), bay := x.xlat.map (·.bay), xlat := x.xlat.map fun t => (t.aperture, t.addr) }

/-- The posted failure path of an entry whose record was `x` (R50). -/
def State.postedFailure (x : Entry) (st : Status) (s : State) : State :=
  let s1 : State := { s with tracker := { s.tracker with postedFault := s.tracker.postedFault.set x.domain true } }
  let s2 := s1.offer (x.failureOffer st)
  match x.xlat with
  | some t => s2.raise t.bay .postedFault
  | none => s2

/-- The bay work of a posted entry ends, up to the examinations of step 4 (R49): the status is recorded and the entry leaves the posted set, a failure takes its path, and the entry goes DONE or is freed. -/
def State.endPosted (e : EntryId) (st : Status) (s : State) : State :=
  let x := s.tracker.entries[e]
  let s1 := s.mapEntry e fun y => { y with state := .done, status := st }
  let s2 := if st == .ok then s1 else s1.postedFailure x st
  if x.response.isSome then s2 else s2.freeEntry e

/-- An entry goes DONE with a status; its response is made ready apart (R46, R58). -/
def State.goDone (e : EntryId) (st : Status) (s : State) : State :=
  s.mapEntry e fun y => { y with state := .done, status := st }

/-- A DONE entry's response is assembled and made ready (R46). -/
def State.readyDone (e : EntryId) (s : State) : State := s.makeReady e s.tracker.entries[e].assemble

/-- The work of an entry ends with a status: posted by R49, discard-marked by R65, and otherwise DONE (R58). -/
def State.stopEntry (e : EntryId) (st : Status) (s : State) : State :=
  if s.tracker.entries[e].posted then s.endPosted e st
  else if s.tracker.entries[e].discard then s.freeEntry e
  else s.goDone e st

/-- The entry is DONE and its response is still to be made ready (R60). -/
def Entry.unanswered (x : Entry) : Bool := x.state == .done && !x.posted && x.response.isNone

/-- Make ready the response of an entry that has gone DONE without one (R60). -/
def State.readyIfDone (e : EntryId) (s : State) : State := if s.tracker.entries[e].unanswered then s.readyDone e else s

/-! ### Hold lists and SYNC (R53, R54, R56, R57) -/

/-- Place an entry in its bay's queue (R42, R54). -/
def State.place (e : EntryId) (b : BayId) (s : State) : State :=
  (s.mapEntry e fun y => { y with state := .queued }).mapBay b (Bay.enqueue e)

/-- Release an entry from its hold list: into its bay's queue, or to its failure (R54). The response of a failed non-posted entry is made ready at the end of the examination (log 11). -/
def State.release (e : EntryId) (x : Translation) (s : State) : State :=
  if !s.tracker.entries[e].stale && s.bays[x.bay].takesRequests then s.place e x.bay
  else if s.tracker.entries[e].posted then s.endPosted e .bayNotReady
  else s.goDone e .bayNotReady

/-- Release `e` if it is the oldest entry of its hold list and condition (a) does not stop it (R53). -/
def State.releaseIfReady (e : EntryId) (s : State) : State :=
  match s.tracker.entries[e].xlat with
  | some x =>
    if s.tracker.entries[e].state == .held && !s.tracker.earlierHeld e x.bay && !s.tracker.strictHold e x then s.release e x else s
  | none => s

/-- Examine the hold lists of the domains `ds` (R53). A release can let go only entries taken later, so one pass in the order taken examines each list until it is empty or stopped, and the released entries join their bay queues in that order. Several releases that fail in one event are offered to the capture in that order too: this is the model's choice (R171, log 31). -/
def State.examineHolds (ds : List DomainId) (s : State) : State :=
  s.tracker.taken.foldl (fun s e => if ds.contains s.tracker.entries[e].domain then s.releaseIfReady e else s) s

/-- Every entry of `e`'s domain taken before it is DONE and not in the posted set (R56). A freed entry is no longer listed, and a DONE entry's bay work has ended. -/
def Tracker.earlierDone (t : Tracker) (e : EntryId) : Bool :=
  (t.before e).all fun x => t.entries[x].domain != t.entries[e].domain || t.entries[x].state == .done

/-- A SYNC goes DONE: its response takes the posted-fault flag of its domain, which is cleared (R57). -/
def State.syncDone (e : EntryId) (s : State) : State :=
  let d := s.tracker.entries[e].domain
  let flag := s.tracker.postedFault[d]
  let s' := s.mapEntry e fun y => { y with state := .done, status := .ok, flags := { y.flags with postedFault := flag } }
  { s' with tracker := { s'.tracker with postedFault := s'.tracker.postedFault.set d false } }

/-- Examine the SYNCs of the domains `ds`, oldest first (R56). -/
def State.examineSyncs (ds : List DomainId) (s : State) : State :=
  s.tracker.taken.foldl
    (fun s e => if ds.contains s.tracker.entries[e].domain && s.tracker.entries[e].state == .waiting && s.tracker.earlierDone e then s.syncDone e else s) s

/-- The examinations that follow the end or the freeing of entries: the hold lists of `holds` and the SYNCs of `syncs` (R53, R56, log 30).
A posted write whose release fails ends before any SYNC is examined, so that a SYNC taken before it carries its failure and clears the flag: this is the model's choice (log 32). -/
def State.letGo (holds syncs : List DomainId) (s : State) : State := (s.examineHolds holds).examineSyncs syncs

/-- Make ready, in the order of `es`, the responses of those of them that went DONE in this event (R60). -/
def State.readyThese (es : List EntryId) (s : State) : State := es.foldl (fun s e => s.readyIfDone e) s

/-- Make ready the responses of the entries that went DONE in this event, in the order taken (R60). -/
def State.readyAll (s : State) : State := s.readyThese s.tracker.taken

/-- The examinations, and the responses of what went DONE in the event (R53, R56, R60). -/
def State.examine (holds syncs : List DomainId) (s : State) : State := (s.letGo holds syncs).readyAll

/-- The end of an entry that is in the queue of bay `b` (R58). The end of a non-posted entry changes no hold list, and what it lets go was taken after it, so its response is ready first (R60). -/
def State.endEntry (b : BayId) (e : EntryId) (st : Status) (s : State) : State :=
  let d := s.tracker.entries[e].domain
  let holds := if s.tracker.entries[e].posted then [d] else []
  (((s.dequeue b e).stopEntry e st).readyIfDone e).examine holds [d]

/-! ### Aborts, and the events that abort (R55, R62, R118, R119, R121) -/

/-- Mark stale every HELD entry for bay `b` (R55). -/
def State.markStale (b : BayId) (s : State) : State :=
  s.tracker.taken.foldl
    (fun s e => if s.tracker.entries[e].state == .held && s.tracker.entries[e].xlat.any (·.bay == b) then s.mapEntry e fun y => { y with stale := true } else s) s

/-- The entries of a list, in its order, and those of `q`, in theirs: an entry of `q` that the list comes to brings with it those of `q` that stand before it there and have not come yet. `rest` are those still to come. -/
def bringing (q : List EntryId) : List EntryId → List EntryId → List EntryId
  | rest, [] => rest
  | rest, e :: l =>
    if rest.contains e then rest.takeWhile (· != e) ++ e :: bringing q ((rest.dropWhile (· != e)).drop 1) l
    else if q.contains e then bringing q rest l
    else e :: bringing q rest l

/-- The order in which an abort of the queue `q` makes responses ready: the aborted entries that are answered in their order in the queue (R62), and every other response after those of the entries taken before it, as a SYNC comes after those of its domain (R56), and otherwise in the order taken (R60). Where the queue order is not the order taken, R60 cannot hold of every two responses: that another response then comes after the entries of other domains taken before it, and so behind some taken after it, is the model's choice (log 11). -/
def Tracker.abortOrder (t : Tracker) (q : List EntryId) : List EntryId :=
  let answered := q.filter fun e => !t.entries[e].posted && !t.entries[e].discard
  bringing answered answered t.taken

/-- Put bay `b` through `f`, which empties its queue, and abort every entry the queue held with status `st`, in queue order; HELD entries for the bay become stale, the hold lists and SYNCs of the domains concerned are examined, and the responses are made ready (R55, R60, R62).
Every aborted entry ends before the examinations, so that a SYNC taken between two failed posted writes takes the flag that both have set and leaves it clear: this is the model's choice (log 32). So is the order in which the failed posted writes are offered: those aborted in queue order, then those whose release fails, in the order taken (R171, log 31). -/
def State.abortBay (b : BayId) (f : Bay → Bay) (st : Status) (s : State) : State :=
  let q := s.bays[b].queue
  let domains := q.map fun e => s.tracker.entries[e].domain
  let posters := (q.filter fun e => s.tracker.entries[e].posted).map fun e => s.tracker.entries[e].domain
  (((q.foldl (fun s e => s.stopEntry e st) (s.mapBay b f)).markStale b).letGo posters domains).readyThese (s.tracker.abortOrder q)

/-- The queue `now`, which was `before` when the event began, with the entries that have joined it in the event put into the order taken (R53). -/
def Tracker.joinOrder (t : Tracker) (before now : List EntryId) : List EntryId :=
  now.filter before.contains ++ t.taken.filter fun e => now.contains e && !before.contains e

/-- Where an event that began in `s0` has released entries more than once, those that have joined one bay queue stand there in the order taken (R53). -/
def State.joinAsTaken (s0 s : State) : State :=
  { s with bays := tabulate 8 fun b => { s.bays[b] with queue := s.tracker.joinOrder s0.bays[b].queue s.bays[b].queue } }

/-- A removal (R121). -/
def State.removal (b : BayId) (s : State) : State := (s.abortBay b Bay.remove .moduleGone).raise b .presence

/-- An accepted RESET (R118). -/
def State.resetBay (b : BayId) (s : State) : State := s.abortBay b Bay.restart .bayReset

/-- Entering FAULTED with a cause (R119). -/
def State.faultBay (b : BayId) (c : FaultCause) (s : State) : State :=
  ((s.abortBay b (Bay.fault c) .bayFaulted).offer { kind := c.offerKind, who := none, bay := some b, xlat := none }).raise b .bayFault

/-- What bay `b` does by itself at the end of an event (R117, R133). -/
def State.settle (b : BayId) (s : State) : State := s.mapBay b Bay.settle

end Sys2Proof.Machine
end

