-- ==== Sys2Proof/Machine/Admission.lean ====
section
/-! DEFINITION. The admission arbiter (2.3), the admission checks (2.4), the placing of admitted entries (3.3 to 3.5), and the commands READ, WRITE, BLOCK_READ, BLOCK_WRITE, FETCH_ADD and SYNC. -/

namespace Sys2Proof.Machine

/-! ### The arbiter (R30 to R32) -/

/-- What the arbiter takes next: the domain served, its head request, and the entry it takes. -/
structure Taken where
  domain  : DomainId
  request : Request
  entry   : EntryId
  deriving DecidableEq, Repr

/-- The order in which the intake queues are examined: last-served + 1 and on, modulo 8 (R30). -/
def serviceOrder (last : DomainId) : List DomainId :=
  [last + 1, last + 2, last + 3, last + 4, last + 5, last + 6, last + 7, last]

/-- The lowest-numbered free entry (R32). -/
def Tracker.lowestFree (t : Tracker) : Option EntryId := (List.finRange 32).find? fun e => t.entries[e].state == .free

/-- The domain the arbiter serves next: the first non-empty intake queue in its order (R30). -/
def State.servedDomain (s : State) : Option DomainId :=
  (serviceOrder s.tables.lastServed).find? fun d => !s.uplink.intake[d].isEmpty

/-- The arbiter's next choice: a free entry and a non-empty queue are needed (R30, R31). -/
def State.nextTaken (s : State) : Option Taken :=
  match s.tracker.lowestFree, s.servedDomain with
  | some e, some d =>
    match s.uplink.intake[d] with
    | r :: _ => some { domain := d, request := r, entry := e }
    | [] => none
  | _, _ => none

/-- The data buffer an entry starts with: the write data or the record of its payload (R32, Table 3-1). -/
def Request.writeBuffer (r : Request) : List Word :=
  match r.kind with
  | .write | .blockWrite | .ctlWrite => r.payload
  | _ => []

/-- The operand of a FETCH_ADD: its payload as one value of its size (R96, R165). -/
def Request.operand (r : Request) : BitVec 64 :=
  if r.kind == .fetchAdd then BitVec.ofNat 64 (natOfBytes ((bytesOfWords r.payload).take r.size)) else 0

/-- The entry a request takes, before its checks (R32). -/
def Entry.ofRequest (r : Request) : Entry :=
  { Entry.blank with
    domain := r.domain, tag := r.tag, kind := r.kind, size := r.size,
    count := if r.kind.isBlock then r.count else 0,
    stride := if r.kind.isBlock then r.stride else .none,
    operand := r.operand, buffer := r.writeBuffer }

/-- The arbiter takes a request: it leaves its intake queue, its domain becomes the last served, and it enters its entry and the tail of its admission list (R30, R32, R44). -/
def State.takeRequest (t : Taken) (s : State) : State :=
  { s with
    uplink := { s.uplink with intake := s.uplink.intake.set t.domain s.uplink.intake[t.domain].tail }
    tables := { s.tables with lastServed := t.domain }
    tracker := { s.tracker with entries := s.tracker.entries.set t.entry (Entry.ofRequest t.request), taken := s.tracker.taken ++ [t.entry] } }

/-- One service of the arbiter, for a command that names a request of the form `want`: where the arbiter's next choice is not of that form, the command does not describe a service and nothing happens (log 2). -/
def State.serve (want : Request → Bool) (act : Taken → State → State) (s : State) : State :=
  match s.nextTaken with
  | some t => if want t.request then act t (s.takeRequest t) else s
  | none => s

/-- A request's entry goes DONE with a status, what its response carries is put in place, the response is made ready, and the SYNCs of its domain are examined (R46, R56). -/
def State.finish (t : Taken) (st : Status) (fill : Entry → Entry) (s : State) : State :=
  (((s.mapEntry t.entry fill).goDone t.entry st).readyDone t.entry).examine [] [t.request.domain]

/-- A request is refused or ends with nothing but a status (R33, R38). -/
def State.finishWith (t : Taken) (st : Status) (s : State) : State := s.finish t st id

/-! ### The checks of a data request (Table 2-4) -/

/-- Step 1: the domain is enabled. -/
def State.enabled (s : State) (d : DomainId) : Bool := s.tables.domains[d].enabled

/-- The grant bit of (domain, bay, port group) (R28). -/
def AdmissionUnit.granted (t : AdmissionUnit) (d : DomainId) (b : BayId) (g : Nat) : Bool :=
  (t.grants[(⟨8 * d.val + b.val, by omega⟩ : Fin 64)][Fin.ofNat 8 (g / 32)]).getLsbD (g % 32)

/-- Step 8, the port grant check (R29). -/
def AdmissionUnit.portGranted (t : AdmissionUnit) (r : Request) (a : Aperture) : Bool :=
  a.kind == .memory || decide (t.domains[r.domain].level ≤ t.freeLevels[a.bay])
    || (portGroups r a).all fun g => t.granted r.domain a.bay g

/-- Step 11, the module range check (R13). -/
def rangeFits (r : Request) (a : Aperture) (b : Bay) : Bool :=
  a.kind == .port || decide (moduleHigh r a < b.memoryPages * Config.pageBytes)

/-- Steps 4 to 11 against the match `a`, each with its status (Table 2-4). -/
def State.dataChecks (s : State) (r : Request) (a : Aperture) : List (Bool × Status) :=
  [(spanInside r a, .span),
   (!(r.kind == .fetchAdd && a.kind == .port), .wrongKind),
   (decide (s.tables.domains[r.domain].level ≤ a.level), .level),
   (!(r.kind.isWrite && a.writeProtect), .writeProtect),
   (s.tables.portGranted r a, .portDenied),
   (!(r.kind.isWrite && a.auxGated && !s.bays[a.bay].auxRail), .railOff),
   (s.bays[a.bay].takesRequests, .bayNotReady),
   (rangeFits r a s.bays[a.bay], .range)]

/-- The first check that fails gives the status (R33). -/
def firstFailure : List (Bool × Status) → Option Status
  | [] => none
  | c :: cs => if c.1 then firstFailure cs else some c.2

/-- The outcome of the checks of a data request: its refusal status, or the match (R33, R37). -/
inductive DataVerdict where
  | refused (status : Status)
  | admitted (i : Fin 32)
  deriving DecidableEq, Repr

/-- Steps 1 and 3 to 11 of Table 2-4 in order. -/
def State.checkData (s : State) (r : Request) : DataVerdict :=
  if !s.enabled r.domain then .refused .domainOff
  else match lookup s.tables.apertures r with
    | none => .refused .noAperture
    | some i =>
      match firstFailure (s.dataChecks r s.tables.apertures[i]) with
      | some st => .refused st
      | none => .admitted i

/-! ### Admitted data requests (R37, R47, R51) -/

/-- A request admitted through `a` is a posted write (R37). -/
def postedThrough (r : Request) (a : Aperture) : Bool := r.kind == .write && a.posting

/-- Write the translation copy and the posted mark into the entry (R12, R37). -/
def State.writeTranslation (t : Taken) (i : Fin 32) (s : State) : State :=
  let a := s.tables.apertures[i]
  s.mapEntry t.entry fun y => { y with xlat := some (translation t.request i a), posted := postedThrough t.request a }

/-- A posted entry's OK response is made ready before the hold decision (R47). -/
def State.readyPosted (e : EntryId) (s : State) : State :=
  if s.tracker.entries[e].posted then s.makeReady e s.tracker.entries[e].postedResponse else s

/-- The hold decision: HELD by condition (a) or (b), otherwise QUEUED at the tail of its bay's queue (R51). -/
def State.placeAdmitted (e : EntryId) (x : Translation) (s : State) : State :=
  if s.tracker.strictHold e x || s.tracker.earlierHeld e x.bay then s.mapEntry e fun y => { y with state := .held }
  else s.place e x.bay

/-- An admitted data request (R37, R46). -/
def State.admitData (t : Taken) (i : Fin 32) (s : State) : State :=
  ((s.writeTranslation t i).readyPosted t.entry).placeAdmitted t.entry (translation t.request i s.tables.apertures[i])

/-- The admission of a data request (R32, R33, R37). -/
def State.admission (t : Taken) (s : State) : State :=
  match s.checkData t.request with
  | .refused st => s.finishWith t st
  | .admitted i => s.admitData t i

/-- The arbiter serves a data request of kind `k`. -/
def State.serveData (k : ReqKind) (s : State) : State := s.serve (fun r => r.kind == k) State.admission

/-- READ (R37). -/
def execRead (s : State) : Host.Outcome State Fault Refusal := .next (s.serveData .read)
/-- WRITE: posted where its match posts (R37, R47). -/
def execWrite (s : State) : Host.Outcome State Fault Refusal := .next (s.serveData .write)
/-- BLOCK_READ: its whole span is checked at once (R88). -/
def execBlockRead (s : State) : Host.Outcome State Fault Refusal := .next (s.serveData .blockRead)
/-- BLOCK_WRITE: its whole span is checked at once, and it is never posted (R88). -/
def execBlockWrite (s : State) : Host.Outcome State Fault Refusal := .next (s.serveData .blockWrite)
/-- FETCH_ADD: a write for every check, and never posted (R96). -/
def execFetchAdd (s : State) : Host.Outcome State Fault Refusal := .next (s.serveData .fetchAdd)

/-! ### SYNC -/

/-- The admission of a SYNC: WAITING, and examined at once (R46, R56). -/
def State.admitSync (t : Taken) (s : State) : State :=
  if s.enabled t.request.domain then
    (s.mapEntry t.entry fun y => { y with state := .waiting }).examine [] [t.request.domain]
  else s.finishWith t .domainOff

/-- SYNC (R56). -/
def execSync (s : State) : Host.Outcome State Fault Refusal := .next (s.serve (fun r => r.kind == .sync) State.admitSync)

end Sys2Proof.Machine
end

