-- ==== Sys2Proof/Machine/EventRequests.lean ====
section
/-! DEFINITION. The requests the event unit serves: CLAIM, COMPLETE, THRESHOLD, MESSAGE, CLEAR_SERVICE (8.5 to 8.7). -/

namespace Sys2Proof.Machine

/-- The admission of a request checked at step 1 alone (Table 2-4). -/
def State.serveChecked (k : ReqKind) (act : Taken → State → State) (s : State) : State :=
  s.serve (fun r => r.kind == k) fun t s => if s.enabled t.request.domain then act t s else s.finishWith t .domainOff

/-! ### CLAIM (R148 to R150) -/

/-- Vector `v` is usable: below the limit, and its descriptor present (R141). -/
def EventUnit.usable (u : EventUnit) (v : Fin 256) : Bool := decide (v.val < u.limit) && u.descriptors[v].present

/-- The bay of an item's source; none for a message channel (R149). -/
def Item.bay? : Item → Option BayId
  | .bay s => some ⟨s.val / 8, by omega⟩
  | .msg _ _ => none

/-- The signal flag is cleared and a waiting notice withdrawn (R146, R148). -/
def State.clearSignal (d : DomainId) (s : State) : State := s.mapDelivery d fun y => { y with signal := false, notice := false }

/-- Push an in-service entry of an item on the list of `d` and set the item's active mark (R143, R150). -/
def State.enterService (d : DomainId) (it : Item) (p : Fin 16) (v : Fin 256) (s : State) : State :=
  { s with events := s.events.setActive it true }.mapDelivery d fun y => { y with inService := { source := it.source, priority := p, vector := v } :: y.inService }

/-- The response of a claim (R148 to R150, Table 9-7). -/
def State.claimResponse (t : Taken) (v : Fin 256) (src : Nat) (p : Nat) (handler : Word) (f : Flags) (s : State) : State :=
  s.finish t .ok fun y => { y with flags := f, buffer := claimPayload v src p handler }

/-- A claim takes item `it`: its latch is cleared, and its vector decides between DEFECT, service and hand-over (R148 to R150). -/
def State.claimItem (t : Taken) (d : DomainId) (it : Item) (s : State) : State :=
  let r := s.events.routes[it.source]
  let s1 : State := { s with events := s.events.setPending it false }
  if s1.events.usable r.vector then
    let handler := s1.events.descriptors[r.vector].handler
    match s1.events.descriptors[r.vector].kind with
    | .tracked => (s1.enterService d it r.priority r.vector).claimResponse t r.vector it.source r.priority handler {}
    | .untracked => s1.claimResponse t r.vector it.source r.priority handler { untracked := true }
  else
    (s1.offer { kind := .descriptorMissing, who := some (d, t.request.tag), bay := it.bay?, xlat := none }).claimResponse t r.vector it.source r.priority 0 { defect := true }

/-- The effect of a CLAIM of `d` (R148). -/
def State.claimEffect (t : Taken) (s : State) : State :=
  let d := t.request.domain
  let s1 := s.clearSignal d
  let s2 := match s1.highest d with
    | none => s1.claimResponse t s1.tables.domains[d].spurious 0 0 0 { spurious := true }
    | some it => s1.claimItem t d it
  s2.reexamine d

/-- CLAIM (R148). -/
def execClaim (s : State) : Host.Outcome State Fault Refusal := .next (s.serveChecked .claim State.claimEffect)

/-! ### COMPLETE, CLEAR_SERVICE, THRESHOLD (R151 to R153) -/

/-- The domains re-examined when an item leaves the list of `d`: `d`, and for a bay source the destination of its route as it stands (R151, R152). -/
def EventUnit.leavers (u : EventUnit) (d : DomainId) (x : InService) : List DomainId := [d, u.routedTo (itemOf d x.source)]

/-- The effect of a COMPLETE of `d` (R151). -/
def State.completeEffect (t : Taken) (s : State) : State :=
  let d := t.request.domain
  match s.events.delivery[d].inService with
  | [] => s.finishWith t .nothingInService
  | x :: rest =>
    let s1 : State := { s with events := s.events.setActive (itemOf d x.source) false }.mapDelivery d fun y => { y with inService := rest }
    (s1.finish t .ok fun y => { y with result := packFields [(x.vector, 0), (x.source, 8)] }).reexamineAll (s1.events.leavers d x)

/-- COMPLETE (R151). -/
def execComplete (s : State) : Host.Outcome State Fault Refusal := .next (s.serveChecked .complete State.completeEffect)

/-- The effect of a CLEAR_SERVICE of `d` (R152). -/
def State.clearServiceEffect (t : Taken) (s : State) : State :=
  let d := t.request.domain
  let removed := s.events.delivery[d].inService
  let s1 : State := { s with events := removed.foldl (fun (u : EventUnit) (x : InService) => u.setActive (itemOf d x.source) false) s.events }.mapDelivery d fun y => { y with inService := [] }
  (s1.finish t .ok fun y => { y with result := packFields [(removed.length, 0)] }).reexamineAll (d :: removed.flatMap (s1.events.leavers d))

/-- CLEAR_SERVICE (R152). -/
def execClearService (s : State) : Host.Outcome State Fault Refusal := .next (s.serveChecked .clearService State.clearServiceEffect)

/-- The effect of a THRESHOLD of `d` (R153). The receiver has refused a value above 15. -/
def State.thresholdEffect (t : Taken) (s : State) : State :=
  let d := t.request.domain
  let old := s.events.delivery[d].threshold
  let s1 := s.mapDelivery d fun y => { y with threshold := Fin.ofNat 16 t.request.aux.toNat }
  (s1.finish t .ok fun y => { y with result := packFields [(old, 0)] }).reexamine d

/-- THRESHOLD (R153). -/
def execThreshold (s : State) : Host.Outcome State Fault Refusal := .next (s.serveChecked .threshold State.thresholdEffect)

/-! ### MESSAGE (R154) -/

/-- The channel of a MESSAGE. The receiver has refused a value above 3. -/
def Request.channel (r : Request) : Fin 4 := Fin.ofNat 4 r.aux.toNat

/-- The domains a MESSAGE reaches: those in its mask that are enabled (R154). -/
def State.messageTargets (s : State) (r : Request) : List DomainId := allDomains.filter fun e => r.mask.getLsbD e && s.enabled e

/-- The effect of a MESSAGE that passed its checks: its latches are set, each followed by a re-examination, and the newly set ones are counted (R154). -/
def State.messageEffect (t : Taken) (s : State) : State :=
  let c := t.request.channel
  let targets := s.messageTargets t.request
  let fresh := (targets.filter fun e => !s.events.isPending (.msg c e)).length
  (targets.foldl (fun s e => s.latch (.msg c e)) s).finish t .ok fun y => { y with result := packFields [(fresh, 0)] }

/-- Step 2 of the admission of a MESSAGE: a usable vector, then the message level (R154, Table 2-4). -/
def State.messageChecked (t : Taken) (s : State) : State :=
  let v := s.events.routes[(Item.msg t.request.channel 0).source].vector
  if !s.events.usable v then s.finishWith t .noDescriptor
  else if s.tables.domains[t.request.domain].level ≤ s.events.descriptors[v].messageLevel then s.messageEffect t
  else s.finishWith t .level

/-- MESSAGE (R154). -/
def execMessage (s : State) : Host.Outcome State Fault Refusal := .next (s.serveChecked .message State.messageChecked)

end Sys2Proof.Machine
end

