-- ==== Sys2Proof/Machine/ControlSpace.lean ====
section
/-! DEFINITION. The control requests: CTL_READ of every record group, and the CTL_WRITEs, one command for each writable group and one for the rest (Chapter 10, and the chapters of the tables written). -/

namespace Sys2Proof.Machine

/-! ### CTL_READ (R166 to R168) -/

/-- The DOMAIN_STATUS record (R45, R168, Table 10-4). -/
def State.domainStatusWords (s : State) (d : DomainId) : List Word :=
  let helds := (s.tracker.taken.filter fun e => s.tracker.entries[e].domain == d && s.tracker.entries[e].state == .held).length
  [packFields [(s.uplink.intake[d].length, 0), (helds, 8), ((s.tracker.postedSet d).length, 16), (bitVal s.tracker.postedFault[d], 24)]]

/-- One in-service entry as a word of EVENT_STATUS (Table 10-4). -/
def InService.word (x : InService) : Word := packFields [(x.vector, 0), (x.source, 8), (x.priority, 16)]

/-- The EVENT_STATUS record: the entries oldest first, the slots beyond the count 0 (R142, R168, Table 10-4). -/
def Delivery.words (y : Delivery) : List Word :=
  packFields [(y.threshold, 0), (bitVal y.signal, 8), (y.inService.length, 16)] :: takePad 15 0 (y.inService.reverse.map InService.word)

/-- A word of 32 flags, flag `i` at bit `i`. -/
def flagWord (f : Nat → Bool) : Word := packFields ((List.range 32).map fun i => (bitVal (f i), i))

/-- Source bit `s` of EVENT_PENDING: the latch of bay source `s`, or for channel c whether any latch (c, e) is set (R156). -/
def EventUnit.sourceBit (u : EventUnit) (s : Nat) : Bool :=
  if s < 64 then u.bayPending[Fin.ofNat 64 s]
  else if s < 68 then allDomains.any fun e => u.isPending (.msg (Fin.ofNat 4 s) e)
  else false

/-- The EVENT_PENDING record (R156, Table 10-4). -/
def EventUnit.pendingWords (u : EventUnit) : List Word :=
  [flagWord fun i => u.sourceBit i, flagWord fun i => u.sourceBit (32 + i), flagWord fun i => u.sourceBit (64 + i),
   flagWord fun i => u.msgPending[Fin.ofNat 32 i]]

/-- The record of a group and index, whole, as it stands; the group and index are those `readable` passed (R166, R167). -/
def State.readRecord (s : State) (group index : Nat) : List Word :=
  match group with
  | 1 => s.tables.apertures[Fin.ofNat 32 index].words
  | 2 => s.tables.domains[Fin.ofNat 8 index].words
  | 3 => s.tables.grants[Fin.ofNat 64 index].toList
  | 4 => s.events.routes[Fin.ofNat 68 index].words
  | 5 => s.events.descriptors[Fin.ofNat 256 index].words
  | 6 => [BitVec.ofNat 32 s.events.limit]
  | 7 => s.bays[Fin.ofNat 8 index].policy.words s.tables.freeLevels[Fin.ofNat 8 index]
  | 8 => s.bays[Fin.ofNat 8 index].statusWords
  | 9 => s.bays[Fin.ofNat 8 index].identityWords
  | 10 => s.domainStatusWords (Fin.ofNat 8 index)
  | 11 => s.events.delivery[Fin.ofNat 8 index].words
  | 12 => s.events.pendingWords
  | 13 => captureWords s.capture
  | 14 => Config.deviceId
  | _ => []

/-- The admission of a CTL_READ: steps 1 and 2, the conditions of R166, then the record as it stands (Table 2-4, R166). -/
def State.admitRead (t : Taken) (s : State) : State :=
  if s.tables.domains[t.request.domain].level ≤ 1 then
    if readable t.request then
      s.finish t .ok fun y => { y with buffer := s.readRecord t.request.group t.request.index }
    else s.finishWith t .badRecord
  else s.finishWith t .level

/-- CTL_READ (R166). -/
def execCtlRead (s : State) : Host.Outcome State Fault Refusal := .next (s.serveChecked .ctlRead State.admitRead)

/-! ### CTL_WRITE -/

/-- The admission of a CTL_WRITE: steps 1 and 2, the conditions of R166, then `apply`, which answers none where the record fails a condition of its group (Table 2-4, R166). -/
def State.admitWrite (apply : Request → State → Option State) (t : Taken) (s : State) : State :=
  if !s.enabled t.request.domain then s.finishWith t .domainOff
  else if s.tables.domains[t.request.domain].level = 0 then
    if writable t.request then
      match apply t.request s with
      | some s' => s'.finishWith t .ok
      | none => s.finishWith t .badRecord
    else s.finishWith t .badRecord
  else s.finishWith t .level

/-- The arbiter serves a CTL_WRITE of record group code `g` (Table 9-5). -/
def State.serveWrite (g : Nat) (apply : Request → State → Option State) (s : State) : State :=
  s.serve (fun r => r.kind == .ctlWrite && r.group == g) (State.admitWrite apply)

/-- Replace or clear an aperture record (R3). -/
def writeAperture (r : Request) (s : State) : Option State :=
  (apertureOfWords r.payload).map fun a =>
    { s with tables := { s.tables with apertures := s.tables.apertures.set (Fin.ofNat 32 r.index) a } }

/-- CTL_WRITE of group APERTURE (R3). -/
def execCtlWriteAperture (s : State) : Host.Outcome State Fault Refusal := .next (s.serveWrite 1 writeAperture)

/-- Replace a domain record; a change of the enabled field is followed by a re-examination of the domain (R25, Table 8-4). -/
def writeDomain (r : Request) (s : State) : Option State :=
  (domainOfWords r.payload).map fun x =>
    let d : DomainId := Fin.ofNat 8 r.index
    let s1 : State := { s with tables := { s.tables with domains := s.tables.domains.set d x } }
    if x.enabled == s.tables.domains[d].enabled then s1 else s1.reexamine d

/-- CTL_WRITE of group DOMAIN (R25). -/
def execCtlWriteDomain (s : State) : Host.Outcome State Fault Refusal := .next (s.serveWrite 2 writeDomain)

/-- Replace a grant record (R28). -/
def writeGrant (r : Request) (s : State) : Option State :=
  (grantOfWords r.payload).map fun x =>
    { s with tables := { s.tables with grants := s.tables.grants.set (Fin.ofNat 64 r.index) x } }

/-- CTL_WRITE of group GRANT (R28). -/
def execCtlWriteGrant (s : State) : Host.Outcome State Fault Refusal := .next (s.serveWrite 3 writeGrant)

/-- The domains re-examined after route `i` changes: for a bay source its destinations before and after, for a message channel every domain (R140). -/
def routeDomains (i : Fin 68) (before after : Route) : List DomainId :=
  if i.val < 64 then [before.destination, after.destination] else allDomains

/-- Replace a route record (R140). -/
def writeRoute (r : Request) (s : State) : Option State :=
  (routeOfWords r.payload).map fun x =>
    let i : Fin 68 := Fin.ofNat 68 r.index
    { s with events := { s.events with routes := s.events.routes.set i x } }.reexamineAll (routeDomains i s.events.routes[i] x)

/-- CTL_WRITE of group ROUTE (R140). -/
def execCtlWriteRoute (s : State) : Host.Outcome State Fault Refusal := .next (s.serveWrite 4 writeRoute)

/-- Replace a descriptor record (R141). -/
def writeDescriptor (r : Request) (s : State) : Option State :=
  (descriptorOfWords r.payload).map fun x =>
    { s with events := { s.events with descriptors := s.events.descriptors.set (Fin.ofNat 256 r.index) x } }

/-- CTL_WRITE of group DESCRIPTOR (R141). -/
def execCtlWriteDescriptor (s : State) : Host.Outcome State Fault Refusal := .next (s.serveWrite 5 writeDescriptor)

/-- Replace the descriptor limit (R141). -/
def writeDescLimit (r : Request) (s : State) : Option State :=
  (limitOfWords r.payload).map fun n => { s with events := { s.events with limit := n } }

/-- CTL_WRITE of group DESC_LIMIT (R141). -/
def execCtlWriteDescLimit (s : State) : Host.Outcome State Fault Refusal := .next (s.serveWrite 6 writeDescLimit)

/-- Withdraw the pending latch of kind `k` at bay `b`; the domain it was routed to is re-examined (R131, Table 8-4). -/
def State.withdraw (b : BayId) (k : Fin 8) (s : State) : State :=
  let it := Item.bay (baySource b k)
  if s.events.isPending it then { s with events := s.events.setPending it false }.reexamine (s.events.routedTo it) else s

/-- The kinds whose enable a policy write clears (R131). -/
def clearedKinds (before after : Byte) : List (Fin 8) := (List.finRange 8).filter fun k => before.getLsbD k && !after.getLsbD k

/-- Replace a bay policy record and its free level, and withdraw the pending latches of the enables it clears (R122, R131). -/
def writeBayPolicy (r : Request) (s : State) : Option State :=
  (policyOfWords r.payload).map fun x =>
    let b : BayId := Fin.ofNat 8 r.index
    let s1 := s.mapBay b fun y => { y with policy := x.1 }
    let s2 : State := { s1 with tables := { s1.tables with freeLevels := s1.tables.freeLevels.set b x.2 } }
    (clearedKinds s.bays[b].policy.sense x.1.sense).foldl (fun s k => s.withdraw b k) s2

/-- CTL_WRITE of group BAY_POLICY (R122). -/
def execCtlWriteBayPolicy (s : State) : Host.Outcome State Fault Refusal := .next (s.serveWrite 7 writeBayPolicy)

/-- The group code names no writable group (R166, Table 10-1). -/
def Request.otherGroup (r : Request) : Bool :=
  match groupInfo r.group with
  | some g => !g.writable
  | none => true

/-- CTL_WRITE of a read-only or unnamed group: refused BAD_RECORD once steps 1 and 2 have passed (R166). -/
def execCtlWriteOtherGroup (s : State) : Host.Outcome State Fault Refusal :=
  .next (s.serve (fun r => r.kind == .ctlWrite && r.otherGroup) (State.admitWrite fun _ _ => none))

end Sys2Proof.Machine
end

