-- ==== Sys2Proof/Machine/BayActions.lean ====
section
/-! DEFINITION. The bay actions (R39): POWER_ON, POWER_OFF, AUX_ON, AUX_OFF, RESET, RETRY (Chapter 6), PARK_LIGHT, PARK_DEEP, WAKE (Chapter 7), CAPTURE_CLEAR (R172), and a selector that names no action. -/

namespace Sys2Proof.Machine

/-! ### What a bay decides about an action, on its own state: none is BAD_STATE -/

/-- POWER_ON by state (R114). -/
def Bay.actPowerOn (b : Bay) : Option Bay :=
  match b.state with
  | .unpowered => some b.enterPowering
  | .powering | .held | .starting | .identifying | .online => some b
  | .parking | .parked | .waking => if b.drainRequested then none else some b
  | .draining | .empty | .seating | .faulted => none

/-- POWER_OFF by state; entering DRAINING calls the arbiter (R82, R115, R116). -/
def Bay.actPowerOff (b : Bay) : Option Bay :=
  match b.state with
  | .powering | .held | .starting | .identifying => some (b.enter .unpowered)
  | .online => some (b.enter .draining).callArbiter.settle
  | .parking | .parked | .waking => some ({ b with drainRequested := true }.wakeCheck).settle
  | .draining | .unpowered | .empty | .seating => some b
  | .faulted => some (b.enter .unpowered)

/-- AUX_ON, accepted in every state: the aux rail goes on with the main rail on (R107). -/
def Bay.actAuxOn (b : Bay) : Option Bay := some { b with auxWanted := true, auxRail := b.mainRail }

/-- AUX_OFF, accepted in every state (R107). -/
def Bay.actAuxOff (b : Bay) : Option Bay := some { b with auxWanted := false, auxRail := false }

/-- The states in which RESET is accepted (R118). -/
def BayState.resettable : BayState → Bool
  | .held | .starting | .identifying | .online | .parking | .parked | .waking => true
  | .empty | .seating | .unpowered | .powering | .draining | .faulted => false

/-- RETRY, accepted in FAULTED (R120). -/
def Bay.actRetry (b : Bay) : Option Bay := if b.state == .faulted then some b.enterPowering else none

/-- PARK_LIGHT, accepted on an idle ONLINE bay; entering PARKING calls the arbiter (R82, R132). -/
def Bay.actParkLight (b : Bay) : Option Bay :=
  if b.state == .online && b.idle then some ({ b.enter .parking with depth := some .light }.callArbiter).settle else none

/-- PARK_DEEP, accepted on an idle ONLINE bay, with the release-all; entering PARKING calls the arbiter (R80, R82, R132). -/
def Bay.actParkDeep (b : Bay) : Option Bay :=
  if b.state == .online && b.idle then some ({ b.enter .parking with depth := some .deep }.releaseAll.callArbiter).settle else none

/-- WAKE by state (R136). -/
def Bay.actWake (b : Bay) : Option Bay :=
  match b.state with
  | .parked => some b.startWake.settle
  | .online | .waking => some b
  | .empty | .seating | .unpowered | .powering | .held | .starting | .identifying | .parking | .draining | .faulted => none

/-! ### At admission (R39) -/

/-- The admission of a BAY_ACTION: steps 1 and 2, then the action, which answers none and a status where it is not accepted (R39). -/
def State.admitAction (act : Request → State → Option State) (st : Status) (t : Taken) (s : State) : State :=
  if !s.enabled t.request.domain then s.finishWith t .domainOff
  else if s.tables.domains[t.request.domain].level = 0 then
    match act t.request s with
    | some s' => s'.finishWith t .ok
    | none => s.finishWith t st
  else s.finishWith t .level

/-- The arbiter serves a BAY_ACTION of action code `c` (Table 9-5). -/
def State.serveAction (c : Nat) (act : Request → State → Option State) (s : State) : State :=
  s.serve (fun r => r.kind == .bayAction && r.action == c) (State.admitAction act .badState)

/-- An action that its bay's engine decides on the bay's own state. -/
def onBay (f : Bay → Option Bay) (r : Request) (s : State) : Option State :=
  (f s.bays[r.actionBay]).map fun b' => s.mapBay r.actionBay fun _ => b'

/-- POWER_ON (R114). -/
def execPowerOn (s : State) : Host.Outcome State Fault Refusal := .next (s.serveAction 1 (onBay Bay.actPowerOn))
/-- POWER_OFF (R115). -/
def execPowerOff (s : State) : Host.Outcome State Fault Refusal := .next (s.serveAction 2 (onBay Bay.actPowerOff))
/-- AUX_ON (R107). -/
def execAuxOn (s : State) : Host.Outcome State Fault Refusal := .next (s.serveAction 3 (onBay Bay.actAuxOn))
/-- AUX_OFF (R107). -/
def execAuxOff (s : State) : Host.Outcome State Fault Refusal := .next (s.serveAction 4 (onBay Bay.actAuxOff))

/-- RESET of the bay its selector names (R118). -/
def actReset (r : Request) (s : State) : Option State :=
  if s.bays[r.actionBay].state.resettable then some (s.resetBay r.actionBay) else none

/-- RESET (R118). -/
def execReset (s : State) : Host.Outcome State Fault Refusal := .next (s.serveAction 5 actReset)
/-- RETRY (R120). -/
def execRetry (s : State) : Host.Outcome State Fault Refusal := .next (s.serveAction 6 (onBay Bay.actRetry))
/-- PARK_LIGHT (R132). -/
def execParkLight (s : State) : Host.Outcome State Fault Refusal := .next (s.serveAction 7 (onBay Bay.actParkLight))
/-- PARK_DEEP (R132). -/
def execParkDeep (s : State) : Host.Outcome State Fault Refusal := .next (s.serveAction 8 (onBay Bay.actParkDeep))
/-- WAKE (R136). -/
def execWake (s : State) : Host.Outcome State Fault Refusal := .next (s.serveAction 9 (onBay Bay.actWake))

/-- CAPTURE_CLEAR: the record becomes invalid; the bay field is ignored (R39, R172). -/
def actCaptureClear (_ : Request) (s : State) : Option State := some { s with capture := none }

/-- CAPTURE_CLEAR (R172). -/
def execCaptureClear (s : State) : Host.Outcome State Fault Refusal := .next (s.serveAction 10 actCaptureClear)

/-- The selector names no action: its code is not 1 to 10 (R39, Table 9-5). -/
def Request.unknownAction (r : Request) : Bool := r.action == 0 || decide (10 < r.action)

/-- A BAY_ACTION whose selector names no action: BAD_RECORD once steps 1 and 2 have passed (R39). -/
def execBayActionUnknown (s : State) : Host.Outcome State Fault Refusal :=
  .next (s.serve (fun r => r.kind == .bayAction && r.unknownAction) (State.admitAction (fun _ _ => none) .badRecord))

end Sys2Proof.Machine
end

