-- ==== Sys2Proof/Machine/BayBus.lean ====
section
/-! DEFINITION. The commands of a bay's bus and of its timers in service: BAY_DECISION_POINT, EXCHANGE_ANSWER, EXCHANGE_TIMEOUT, DWELL_EXPIRY, RECOVERY_EXPIRY, POLL_TIMER_EXPIRY, WAKE_TIMER_EXPIRY (Chapters 4, 5 and 7). -/

namespace Sys2Proof.Machine

/-! ### The decision point (R82 to R85, R93) -/

/-- The next unit of an entry: unit number units done of a block, or its one unit (R88, R96). -/
def Entry.nextUnit (x : Entry) (e : EntryId) (t : Translation) (laneCount : Nat) : UnitRun :=
  let addr := unitAddr t.addr x.stride x.size x.unitsDone
  { entry := e, dir := x.kind.dir, addr := addr, size := x.size, width := t.width, policy := t.policy,
    place := match t.kind with
      | .memory => some { lane := laneOf (pageOf addr) laneCount, page := pageOf addr }
      | .port => none
    value := match x.kind.dir with
      | .write => streamValue (bytesOfWords x.buffer) x.size x.unitsDone
      | .fetchAdd => bytesOfNat x.size x.operand.toNat
      | .read => []
    phase := .awaitRecovery, got := [] }

/-- The aux gate of R22 is shut for a unit of this entry. -/
def auxGateShut (x : Entry) (t : Translation) (b : Bay) : Bool := x.kind.isWrite && t.auxGated && !b.auxRail

/-- Take the next unit of an entry: the checks of the unit's start, which may end the entry without an exchange and so bring the next decision point, and then the unit (R22, R58, R65, R82, R83). -/
def State.beginEntry (b : BayId) (e : EntryId) (s : State) : State :=
  let x := s.tracker.entries[e]
  match x.xlat with
  | some t =>
    if x.discard then (s.endEntry b e .ok).mapBay b Bay.callArbiter
    else if auxGateShut x t s.bays[b] then (s.endEntry b e .railOff).mapBay b Bay.callArbiter
    else (s.mapEntry e fun y => { y with state := .running }).mapBay b (Bay.beginUnit (x.nextUnit e t s.bays[b].laneCount))
  | none => s

/-- An entry of the queue of bay `b` in state `st`, the oldest such. -/
def State.inQueue (b : BayId) (st : EntryState) (s : State) : Option EntryId :=
  s.bays[b].queue.find? fun e => s.tracker.entries[e].state == st

/-- The block stands at an interjection point: its units done is a positive multiple of 32 and less than its count (R93). -/
def Entry.interjectable (x : Entry) : Bool :=
  x.kind.isBlock && x.unitsDone != 0 && x.unitsDone % Config.interjectionStride == 0 && decide (x.unitsDone < x.count)

/-- `c` may be interjected into block `e`: QUEUED, no block, of another domain, and the first of its own domain in the queue `q` (R93). -/
def Tracker.candidate (t : Tracker) (q : List EntryId) (e c : EntryId) : Bool :=
  t.entries[c].state == .queued && !t.entries[c].kind.isBlock && t.entries[c].domain != t.entries[e].domain
    && (q.takeWhile (· != c)).all fun x => t.entries[x].domain != t.entries[c].domain

/-- Step 3 for the RUNNING entry `e`: at an interjection point the oldest candidate runs first and the block is SUSPENDED; otherwise `e` goes on (R83, R93). -/
def State.continueEntry (b : BayId) (e : EntryId) (s : State) : State :=
  if s.tracker.entries[e].interjectable then
    match s.bays[b].queue.find? (s.tracker.candidate s.bays[b].queue e) with
    | some c => (s.mapEntry e fun y => { y with state := .suspended }).beginEntry b c
    | none => s.beginEntry b e
  else s.beginEntry b e

/-- Issue a POLL (R126). -/
def State.issuePoll (b : BayId) (s : State) : State := s.mapBay b (Bay.issue .poll)

/-- Step 5: an idle bay that owes polls issues one (R83, R126). -/
def State.idlePoll (b : BayId) (s : State) : State :=
  if s.bays[b].idle && decide (1 ≤ s.bays[b].owed) then s.issuePoll b else s

/-- Steps 3 to 5 of R83; in PARKING steps 3 and 4 are passed over (R82). A SUSPENDED block with no RUNNING entry is taken up again (R85, R94). -/
def State.serveEntries (b : BayId) (s : State) : State :=
  if s.bays[b].state == .parking then s.idlePoll b
  else match s.inQueue b .running with
    | some e => s.continueEntry b e
    | none =>
      match s.inQueue b .suspended with
      | some e => s.beginEntry b e
      | none =>
        match s.inQueue b .queued with
        | some e => s.beginEntry b e
        | none => s.idlePoll b

/-- The choice of the arbiter at a decision point, which is then no longer due (R83, R84). -/
def State.arbitrate (b : BayId) (s : State) : State :=
  let s1 := s.mapBay b fun y => { y with forced := y.forcedRun, due := false }
  match s.bays[b].arbiterStep with
  | .forcedPoll => s1.issuePoll b
  | .deferredRelease l => s1.mapBay b (Bay.issueRelease l)
  | .entries => s1.serveEntries b

/-- BAY_DECISION_POINT: the arbiter takes the decision point that is due; where none is, the command names no event of the part (R82, log 1, log 14). -/
def execBayDecisionPoint (b : BayId) (s : State) : Host.Outcome State Fault Refusal :=
  if s.bays[b].atDecision then .next ((s.arbitrate b).settle b) else .next s

/-! ### The end of a unit, and of an exchange (R71, R89, R97) -/

/-- The data buffer of a BLOCK_READ with the value of unit `k` in its position (R89). -/
def storeUnit (buffer : List Word) (size k : Nat) (bytes : List Byte) : List Word :=
  wordsOfBytes ((bytesOfWords buffer).take (k * size) ++ bytes)

/-- A unit of entry `e` has completed, with the bytes read (R21, R58, R65, R89). -/
def State.unitDone (b : BayId) (e : EntryId) (bytes : List Byte) (s : State) : State :=
  let x := s.tracker.entries[e]
  match x.kind with
  | .blockRead =>
    let s1 := s.mapEntry e fun y => { y with unitsDone := x.unitsDone + 1, buffer := storeUnit x.buffer x.size x.unitsDone bytes }
    if x.unitsDone + 1 == x.count || x.discard then s1.endEntry b e .ok else s1
  | .blockWrite =>
    let s1 := s.mapEntry e fun y => { y with unitsDone := x.unitsDone + 1 }
    if x.unitsDone + 1 == x.count || x.discard then s1.endEntry b e .ok else s1
  | .read => (s.mapEntry e fun y => { y with buffer := wordsOfBytes bytes }).endEntry b e .ok
  | _ => s.endEntry b e .ok

/-- What a unit's exchange end means for its entry (R71, R97, R98, R99). -/
def State.unitResult (b : BayId) (e : EntryId) (r : UnitResult) (s : State) : State :=
  match r with
  | .going => s
  | .fetched old carry =>
    s.mapEntry e fun y => { y with oldValue := some (BitVec.ofNat 64 (natOfBytes old)), carry := carry, buffer := wordsOfBytes old }
  | .completed bytes => s.unitDone b e bytes
  | .failed st => s.endEntry b e st

/-- A POLL ends: the owed count falls by 1 (R71). -/
def Bay.payPoll (b : Bay) : Bay := { b with owed := b.owed - 1 }

/-- The rises of a new status word against the last one, in the order of Table 7-2 (R128). -/
def risesOf (last new : StatusWord) : List CondKind :=
  (if !last.attention && new.attention then [.attention] else [])
    ++ (if !last.supplyWarn && new.supplyWarn then [.supplyWarn] else [])
    ++ (if !last.supplyFail && new.supplyFail then [.supplyFail] else [])

/-- A POLL answered ACK: the count falls, the rises are handed on, the word is kept, and the ready check is made, in this order (R128, R129). -/
def State.pollAck (b : BayId) (w : StatusWord) (s : State) : State :=
  let s1 := (risesOf s.bays[b].lastStatus w).foldl (fun s k => s.raise b k) (s.mapBay b Bay.payPoll)
  let s2 := s1.mapBay b fun y => { y with lastStatus := w }
  if !w.ready && s2.bays[b].state.arbitrates then s2.faultBay b .moduleNotReady else s2

/-- A POLL that ends with NAK or as a timeout: the count falls and POLL_FAILED is offered (R130). -/
def State.pollFailure (b : BayId) (s : State) : State :=
  (s.mapBay b Bay.payPoll).offer { kind := .pollFailed, who := none, bay := some b, xlat := none }

/-- A unit's exchange has ended: the bay goes on to `r.1`, and the entry takes `r.2`. -/
def State.unitEnd (b : BayId) (e : EntryId) (r : Bay × UnitResult) (s : State) : State :=
  (s.mapBay b fun _ => r.1).unitResult b e r.2

/-- A RELEASE issued by the arbiter has ended, with any end: the recovery of its lane starts (R71, R75). -/
def State.arbiterEnd (b : BayId) (op : ExchangeOp) (s : State) : State :=
  match op with
  | .release l => s.mapBay b (Bay.startRecovery l)
  | _ => s

/-- The end of an exchange calls the arbiter where it leaves the bus free, and the bay then does what it does by itself at the end of an event (R82, R117, R133). -/
def State.busRest (b : BayId) (s : State) : State := s.mapBay b fun y => y.callArbiter.settle

/-- The exchange in progress is over: none is in progress, and the consecutive timeout count is `n` (R70). -/
def Bay.endExchange (n : Nat) (b : Bay) : Bay := { b with exchange := none, timeouts := n }

/-- An answer ends the exchange in progress (Table 4-2). -/
def State.answered (b : BayId) (op : ExchangeOp) (a : Answer) (s : State) : State :=
  match op, a with
  | .poll, .ack _ w => s.pollAck b w
  | .poll, .nak => s.pollFailure b
  | op, a =>
    match s.bays[b].unit with
    | some u =>
      match a with
      | .ack data _ => s.unitEnd b u.entry (s.bays[b].unitAck u data)
      | .nak => s.unitEnd b u.entry (s.bays[b].unitNak u)
    | none => s.arbiterEnd b op

/-- EXCHANGE_ANSWER: a late answer, and an answer with no exchange in progress, is discarded (R68). An answer sets the consecutive timeout count to 0 (R70). -/
def execExchangeAnswer (b : BayId) (late : Bool) (a : Answer) (s : State) : Host.Outcome State Fault Refusal :=
  match late, s.bays[b].exchange with
  | false, some x => .next (((s.mapBay b (Bay.endExchange 0)).answered b x.op a).busRest b)
  | _, _ => .next s

/-- The exchange in progress ends as a timeout (Table 4-2). -/
def State.timedOut (b : BayId) (op : ExchangeOp) (s : State) : State :=
  match op with
  | .poll => s.pollFailure b
  | op =>
    match s.bays[b].unit with
    | some u => s.unitEnd b u.entry (s.bays[b].unitTimeout u)
    | none => s.arbiterEnd b op

/-- EXCHANGE_TIMEOUT: the exchange's own end is taken first, with all that it lets go; a count raised to 3 then faults the bay (R68, R70, log 35). What the two let go joins each bay queue in the order taken (R53). -/
def execExchangeTimeout (b : BayId) (s : State) : Host.Outcome State Fault Refusal :=
  match s.bays[b].exchange with
  | some x =>
    let n := s.bays[b].timeouts + 1
    let s1 := (s.mapBay b (Bay.endExchange n)).timedOut b x.op
    .next ((if Config.timeoutMax ≤ n then s.joinAsTaken (s1.faultBay b .exchangeTimeouts) else s1).busRest b)
  | none => .next s

/-! ### Timers in service -/

/-- DWELL_EXPIRY (R74). -/
def execDwellExpiry (b : BayId) (l : LaneId) (s : State) : Host.Outcome State Fault Refusal := .next (s.mapBay b (Bay.dwellEnds l))

/-- RECOVERY_EXPIRY (R75); it may end a park or a drain (R117, R133). -/
def execRecoveryExpiry (b : BayId) (l : LaneId) (s : State) : Host.Outcome State Fault Refusal :=
  .next ((s.mapBay b (Bay.recoveryEnds l)).settle b)

/-- The poll timer restarts and the owed count rises, at most to 8; a rise calls the arbiter, and at 8 a PARKED bay starts its wake (R82, R124, R125). -/
def Bay.pollTick (b : Bay) : Bay :=
  let b' : Bay := { b with pollTimer := some b.pollInterval }
  (if b.owed < Config.owedMax then { b' with owed := b.owed + 1 }.callArbiter else b').wakeCheck

/-- POLL_TIMER_EXPIRY: an expiry that finds the count at 8 raises POLL_OVERRUN (R125). -/
def execPollTimerExpiry (b : BayId) (s : State) : Host.Outcome State Fault Refusal :=
  match s.bays[b].pollTimer with
  | some _ =>
    let s1 := (s.mapBay b Bay.pollTick).settle b
    .next (if s.bays[b].owed < Config.owedMax then s1 else s1.raise b .pollOverrun)
  | none => .next s

/-- WAKE_TIMER_EXPIRY (R135). -/
def execWakeTimerExpiry (b : BayId) (s : State) : Host.Outcome State Fault Refusal :=
  if s.bays[b].state == .waking && s.bays[b].timer.isSome then .next ((s.mapBay b Bay.wakeEnds).settle b) else .next s

end Sys2Proof.Machine
end

