-- ==== Sys2Proof/Machine/Lifecycle.lean ====
section
/-! DEFINITION. The commands of a module's life outside service: PRESENCE_CONTACT_CHANGE, DEBOUNCE_EXPIRY, RAIL_GOOD, RAIL_TIMER_EXPIRY, HOLD_TIMER_EXPIRY, MODULE_READY, READY_TIMER_EXPIRY, ID_NO_ANSWER, IDENTITY_READ_END (Chapter 6). -/

namespace Sys2Proof.Machine

/-- The level of a presence contact. -/
def Bay.contact (c : Contact) (b : Bay) : Bool :=
  match c with
  | .first => b.contactFirst
  | .second => b.contactSecond

/-- Set the level of a presence contact. -/
def Bay.setContact (c : Contact) (made : Bool) (b : Bay) : Bay :=
  match c with
  | .first => { b with contactFirst := made }
  | .second => { b with contactSecond := made }

/-- A change at a contact, already read: seating starts in EMPTY when both are made, and ends in SEATING at a break; in every other state a break is a removal (R104, R121). -/
def State.contactChanged (b : BayId) (made : Bool) (s : State) : State :=
  match s.bays[b].state with
  | .empty => if s.bays[b].contactFirst && s.bays[b].contactSecond then s.mapBay b Bay.enterSeating else s
  | .seating => if made then s else s.mapBay b (Bay.enter .empty)
  | _ => if made then s else s.removal b

/-- PRESENCE_CONTACT_CHANGE: a contact reported at the level it already has is no change (R104). -/
def execPresenceContactChange (b : BayId) (c : Contact) (made : Bool) (s : State) : Host.Outcome State Fault Refusal :=
  if s.bays[b].contact c == made then .next s else .next ((s.mapBay b (Bay.setContact c made)).contactChanged b made)

/-- What the power policy makes of the debounce expiry (R105). -/
def Bay.seated (b : Bay) : Bay :=
  match b.policy.power with
  | .manual => b.enter .unpowered
  | .auto => b.enterPowering

/-- DEBOUNCE_EXPIRY: PRESENCE rises, and the power policy decides (R105). An expiry of a stopped timer is not taken (R113). -/
def execDebounceExpiry (b : BayId) (s : State) : Host.Outcome State Fault Refusal :=
  if s.bays[b].state == .seating && s.bays[b].timer.isSome then .next ((s.raise b .presence).mapBay b Bay.seated) else .next s

/-- The rail-good input changes; reported in POWERING it takes the bay to HELD. A rail-good that follows the entry into FAULTED is ended by the rails-off of that state, so that a RETRY waits for a new report (R106).
A rail-good reported in EMPTY, SEATING or UNPOWERED, where the main rail is off as well, stands until a report that it is not good, so that a later POWERING goes on to HELD at once: this is the model's choice (log 33). -/
def Bay.railReport (level : Bool) (b : Bay) : Bay :=
  let b' : Bay := { b with railGood := level && b.state != .faulted }
  if level && b.state == .powering then b'.enterHeld else b'

/-- RAIL_GOOD (R106). -/
def execRailGood (b : BayId) (level : Bool) (s : State) : Host.Outcome State Fault Refusal := .next (s.mapBay b (Bay.railReport level))

/-- RAIL_TIMER_EXPIRY (R106). -/
def execRailTimerExpiry (b : BayId) (s : State) : Host.Outcome State Fault Refusal :=
  if s.bays[b].state == .powering && s.bays[b].timer.isSome then .next (s.faultBay b .railTimeout) else .next s

/-- HOLD_TIMER_EXPIRY (R108). -/
def execHoldTimerExpiry (b : BayId) (s : State) : Host.Outcome State Fault Refusal :=
  if s.bays[b].state == .held && s.bays[b].timer.isSome then .next (s.mapBay b Bay.enterStarting) else .next s

/-- The module ready input changes; asserted in STARTING it takes the bay to IDENTIFYING (R109). -/
def Bay.readyReport (level : Bool) (b : Bay) : Bay :=
  let b' : Bay := { b with moduleReady := level }
  if level && b.state == .starting then b'.enterIdentifying else b'

/-- MODULE_READY (R109). -/
def execModuleReady (b : BayId) (level : Bool) (s : State) : Host.Outcome State Fault Refusal := .next (s.mapBay b (Bay.readyReport level))

/-- READY_TIMER_EXPIRY (R109). -/
def execReadyTimerExpiry (b : BayId) (s : State) : Host.Outcome State Fault Refusal :=
  if s.bays[b].state == .starting && s.bays[b].timer.isSome then .next (s.faultBay b .readyTimeout) else .next s

/-- ID_NO_ANSWER: the read stops at the slot left unacknowledged, and the closing mark follows it (R110). -/
def execIdNoAnswer (slot : IdSlot) (s : State) : Host.Outcome State Fault Refusal :=
  let b := slot.bay
  if s.bays[b].state == .identifying then .next ((s.mapBay b (Bay.readLine (lineUnanswered slot.phase))).faultBay b .idNoAnswer) else .next s

/-- The identity read has ended with record `r`: the closing mark follows the data phase, and the record is checked at it (R110, R111, R112). -/
def State.identityRead (b : BayId) (r : IdentityRecord) (s : State) : State :=
  let s1 := s.mapBay b (Bay.readLine (lineAnswered r))
  if idAccepted r then (s1.mapBay b (Bay.enterOnline r)).raise b .online else s1.faultBay b .identityBad

/-- IDENTITY_READ_END: an abandoned read is not checked (R111, R113). -/
def execIdentityReadEnd (b : BayId) (bytes : List Byte) (s : State) : Host.Outcome State Fault Refusal :=
  if s.bays[b].state == .identifying then .next (s.identityRead b (identityOfBytes bytes)) else .next s

end Sys2Proof.Machine
end

