-- ==== Sys2Proof/Machine/UplinkSide.lean ====
section
/-! DEFINITION. The commands of the device reset, the link, the receiver and the transmitter: POWER_ON_RESET, LINK_GAINED, LINK_LOST, PACKET_RECEIVED, TRANSMIT_CHOICE (Chapter 9, R40, R64, R103, R155). -/

namespace Sys2Proof.Machine

/-! ### Power-on reset -/

/-- A bay engine at the end of a power-on reset: Table 6-2, with its inputs as they are; both contacts made take it to SEATING at once (R103). -/
def Bay.powerOn (b : Bay) : Bay :=
  let b' : Bay := { Bay.initial with contactFirst := b.contactFirst, contactSecond := b.contactSecond, railGood := b.railGood, moduleReady := b.moduleReady }
  if b'.contactFirst && b'.contactSecond then b'.enterSeating else b'

/-- POWER_ON_RESET: every block at its power-on values (R40, R66, R103, R155, R157, R158, R170). The queue of waiting commands is not the part's and stays (log 27). -/
def execPowerOnReset (s : State) : Host.Outcome State Fault Refusal :=
  .next { State.reset with bays := tabulate 8 fun b => s.bays[b].powerOn, pending := s.pending }

/-! ### Link -/

/-- LINK_GAINED: DOWN goes UP, and nothing else is done (R157). -/
def execLinkGained (s : State) : Host.Outcome State Fault Refusal :=
  .next { s with uplink := { s.uplink with link := .up } }

/-- The receiver's and transmitter's part of a link reset (R157, R158). -/
def Uplink.lost (u : Uplink) : Uplink :=
  { u with link := .down, intake := Vector.replicate 8 [], refusals := [], outLink := none }

/-- The bay engine has a unit of entry `e` in progress. -/
def Bay.runs (b : Bay) (e : EntryId) : Bool := b.unit.any (·.entry == e)

/-- Take an entry from its bay's queue, if it has a translation copy, and free it. -/
def State.dropEntry (e : EntryId) (s : State) : State :=
  match s.tracker.entries[e].xlat with
  | some x => (s.dequeue x.bay e).freeEntry e
  | none => s.freeEntry e

/-- The response of a posted entry is removed (Table 3-4). -/
def State.dropResponse (e : EntryId) (s : State) : State := s.mapEntry e fun y => { y with response := none }

/-- A RUNNING non-posted entry at a link reset: marked discard while a unit of it is in progress, and otherwise ended at once (Table 3-4, R65). -/
def State.discardRunning (e : EntryId) (s : State) : State :=
  match s.tracker.entries[e].xlat with
  | some x => if s.bays[x.bay].runs e then s.mapEntry e fun y => { y with discard := true } else s.dropEntry e
  | none => s.dropEntry e

/-- What a link reset does to one entry (Table 3-4). -/
def State.linkResetEntry (e : EntryId) (s : State) : State :=
  let x := s.tracker.entries[e]
  match x.state with
  | .free => s
  | .held => if x.posted then s.dropResponse e else s.freeEntry e
  | .queued => if x.posted then s.dropResponse e else s.dropEntry e
  | .running => if x.posted then s.dropResponse e else s.discardRunning e
  | .suspended => if x.posted then s.dropResponse e else s.dropEntry e
  | .waiting => s.freeEntry e
  | .done => s.freeEntry e

/-- The tracker's part of a link reset: every entry by Table 3-4, the response order emptied, and the hold lists examined, which lets every HELD entry go (R64). -/
def State.trackerLinkReset (s : State) : State :=
  let s1 := s.tracker.taken.foldl (fun s e => s.linkResetEntry e) s
  ({ s1 with tracker := { s1.tracker with order := [] } }).examine allDomains allDomains

/-- The event unit's part of a link reset: waiting notices and signal flags go, and every domain is re-examined (R155). -/
def State.eventLinkReset (s : State) : State :=
  { s with events := { s.events with delivery := tabulate 8 fun d => { s.events.delivery[d] with signal := false, notice := false } } }.reexamineAll allDomains

/-- Every bay settles: a drain whose queue a link reset has emptied goes on (R117). -/
def State.settleAll (s : State) : State := allBays.foldl (fun s b => s.settle b) s

/-- The link reset (R40, R64, R155, R157, R158). -/
def State.linkReset (s : State) : State :=
  let s1 : State := { s with uplink := s.uplink.lost, tables := { s.tables with lastServed := 7 } }
  (s1.trackerLinkReset.settleAll).eventLinkReset

/-- LINK_LOST: UP goes DOWN with a link reset in the same event; DOWN is not changed (R157). -/
def execLinkLost (s : State) : Host.Outcome State Fault Refusal :=
  match s.uplink.link with
  | .up => .next s.linkReset
  | .down => .next s

/-! ### Receiver -/

/-- Put a refusal at the tail of the refusal queue (R162). -/
def State.refuse (r : UplinkRefusal) (s : State) : State :=
  { s with uplink := { s.uplink with refusals := s.uplink.refusals ++ [r] } }

/-- Place a request of good form: at the tail of its domain's intake queue, or refused QUEUE_FULL (R161). -/
def State.intakeRequest (r : Request) (refusal : UplinkRefusal) (s : State) : State :=
  if s.uplink.intake[r.domain].length < Config.intakeDepth then
    { s with uplink := { s.uplink with intake := s.uplink.intake.set r.domain (s.uplink.intake[r.domain] ++ [r]) } }
  else s.refuse refusal

/-- The receiver takes a packet (R159 to R161). -/
def State.takePacket (words : List Word) (s : State) : State :=
  match words with
  | w0 :: w1 :: w2 :: payload =>
    match parseRequest w0 w1 w2 payload with
    | some r => s.intakeRequest r (refusalOf w0 .queueFull)
    | none => s.refuse (refusalOf w0 .malformed)
  | _ => s.offer { kind := .runtPacket, who := none, bay := none, xlat := none }

/-- The receiver takes packets while the link is UP and the refusal queue has room (R159). -/
def State.receives (s : State) : Bool :=
  s.uplink.link == .up && decide (s.uplink.refusals.length < Config.refusalDepth)

/-- PACKET_RECEIVED: a packet that the receiver does not take waits on the link, outside the part (R159, log 6). -/
def execPacketReceived (words : List Word) (s : State) : Host.Outcome State Fault Refusal :=
  if s.receives then .next (s.takePacket words) else .next s

/-! ### Transmitter -/

/-- Put a packet on the outbound link (R163). -/
def State.send (ws : List Word) (s : State) : State := { s with uplink := { s.uplink with outLink := some ws } }

/-- The lowest domain with a notice waiting (R163 step 1). -/
def State.noticeDomain (s : State) : Option DomainId := allDomains.find? fun d => s.events.delivery[d].notice

/-- The priority a notice of `d` carries when it is taken: that of the highest deliverable item, or 0 (R147). -/
def State.noticePriority (s : State) (d : DomainId) : Nat :=
  match s.highest d with
  | some it => s.events.routes[it.source].priority
  | none => 0

/-- The response of `e` is taken: it leaves the response order; a DONE entry is freed and its domain's SYNCs are examined; a posted entry still at work stays (R43, R48, R60). -/
def State.takeResponse (e : EntryId) (s : State) : State :=
  let x := s.tracker.entries[e]
  let s1 : State := { s with tracker := { s.tracker with order := s.tracker.order.tail } }
  if x.state == .done then (s1.freeEntry e).examine [] [x.domain]
  else s1.dropResponse e

/-- The words of the response an entry offers (R60). -/
def Entry.responseWords (x : Entry) : List Word :=
  match x.response with
  | some r => r.words
  | none => []

/-- The transmitter's choice: a notice, else a refusal, else the head response, else nothing (R163). -/
def State.transmit (s : State) : State :=
  match s.noticeDomain with
  | some d => (s.send (noticeWords d (s.noticePriority d))).mapDelivery d fun y => { y with notice := false }
  | none =>
    match s.uplink.refusals with
    | r :: rs => { s with uplink := { s.uplink with refusals := rs } }.send r.words
    | [] =>
      match s.tracker.order with
      | e :: _ => (s.send s.tracker.entries[e].responseWords).takeResponse e
      | [] => s

/-- TRANSMIT_CHOICE: while the link is DOWN nothing is sent (R157, R163). -/
def execTransmitChoice (s : State) : Host.Outcome State Fault Refusal :=
  match s.uplink.link with
  | .up => .next s.transmit
  | .down => .next s

end Sys2Proof.Machine
end

