-- ==== Sys2Proof/Machine/Dispatch.lean ====
section
/-! DEFINITION. exec: one arm for each command, each a direct call of its meaning. -/

namespace Sys2Proof.Machine

def exec (i : Instr) (s : State) : Host.Outcome State Fault Refusal :=
  match i with
  | .powerOnReset => Sys2Proof.Machine.execPowerOnReset s
  | .linkGained => Sys2Proof.Machine.execLinkGained s
  | .linkLost => Sys2Proof.Machine.execLinkLost s
  | .packetReceived words => Sys2Proof.Machine.execPacketReceived words s
  | .transmitChoice => Sys2Proof.Machine.execTransmitChoice s
  | .read => Sys2Proof.Machine.execRead s
  | .write => Sys2Proof.Machine.execWrite s
  | .blockRead => Sys2Proof.Machine.execBlockRead s
  | .blockWrite => Sys2Proof.Machine.execBlockWrite s
  | .fetchAdd => Sys2Proof.Machine.execFetchAdd s
  | .sync => Sys2Proof.Machine.execSync s
  | .claim => Sys2Proof.Machine.execClaim s
  | .complete => Sys2Proof.Machine.execComplete s
  | .threshold => Sys2Proof.Machine.execThreshold s
  | .message => Sys2Proof.Machine.execMessage s
  | .clearService => Sys2Proof.Machine.execClearService s
  | .ctlRead => Sys2Proof.Machine.execCtlRead s
  | .ctlWriteAperture => Sys2Proof.Machine.execCtlWriteAperture s
  | .ctlWriteDomain => Sys2Proof.Machine.execCtlWriteDomain s
  | .ctlWriteGrant => Sys2Proof.Machine.execCtlWriteGrant s
  | .ctlWriteRoute => Sys2Proof.Machine.execCtlWriteRoute s
  | .ctlWriteDescriptor => Sys2Proof.Machine.execCtlWriteDescriptor s
  | .ctlWriteDescLimit => Sys2Proof.Machine.execCtlWriteDescLimit s
  | .ctlWriteBayPolicy => Sys2Proof.Machine.execCtlWriteBayPolicy s
  | .ctlWriteOtherGroup => Sys2Proof.Machine.execCtlWriteOtherGroup s
  | .powerOn => Sys2Proof.Machine.execPowerOn s
  | .powerOff => Sys2Proof.Machine.execPowerOff s
  | .auxOn => Sys2Proof.Machine.execAuxOn s
  | .auxOff => Sys2Proof.Machine.execAuxOff s
  | .reset => Sys2Proof.Machine.execReset s
  | .retry => Sys2Proof.Machine.execRetry s
  | .parkLight => Sys2Proof.Machine.execParkLight s
  | .parkDeep => Sys2Proof.Machine.execParkDeep s
  | .wake => Sys2Proof.Machine.execWake s
  | .captureClear => Sys2Proof.Machine.execCaptureClear s
  | .bayActionUnknown => Sys2Proof.Machine.execBayActionUnknown s
  | .bayDecisionPoint b => Sys2Proof.Machine.execBayDecisionPoint b s
  | .exchangeAnswer b late a => Sys2Proof.Machine.execExchangeAnswer b late a s
  | .exchangeTimeout b => Sys2Proof.Machine.execExchangeTimeout b s
  | .dwellExpiry b l => Sys2Proof.Machine.execDwellExpiry b l s
  | .recoveryExpiry b l => Sys2Proof.Machine.execRecoveryExpiry b l s
  | .pollTimerExpiry b => Sys2Proof.Machine.execPollTimerExpiry b s
  | .wakeTimerExpiry b => Sys2Proof.Machine.execWakeTimerExpiry b s
  | .presenceContactChange b c made => Sys2Proof.Machine.execPresenceContactChange b c made s
  | .debounceExpiry b => Sys2Proof.Machine.execDebounceExpiry b s
  | .railGood b level => Sys2Proof.Machine.execRailGood b level s
  | .railTimerExpiry b => Sys2Proof.Machine.execRailTimerExpiry b s
  | .holdTimerExpiry b => Sys2Proof.Machine.execHoldTimerExpiry b s
  | .moduleReady b level => Sys2Proof.Machine.execModuleReady b level s
  | .readyTimerExpiry b => Sys2Proof.Machine.execReadyTimerExpiry b s
  | .idNoAnswer slot => Sys2Proof.Machine.execIdNoAnswer slot s
  | .identityReadEnd b bytes => Sys2Proof.Machine.execIdentityReadEnd b bytes s

end Sys2Proof.Machine
end

