-- ==== Sys2Proof/Machine/Step.lean ====
section
/-! DEFINITION. One step: the command at the front of the queue, with exec on the queue's rest. -/

namespace Sys2Proof.Machine

/-- Take the command at the front of the queue and answer its outcome on the queue's rest. On an empty queue the part idles (log 3). -/
def step (s : State) : Host.Outcome State Fault Refusal :=
  match s.pending with
  | [] => .next s
  | c :: rest => exec c { s with pending := rest }

/-- Put the command that a word of the opcode table spells at the front of the queue; no row of the table gives bits (log 25). -/
def State.withFetchWord (s : State) (nbits w : Nat) : State :=
  match Sys2Proof.decodeTableWord nbits w with
  | some c => { s with pending := c :: s.pending }
  | none => s

end Sys2Proof.Machine
end

