-- ==== Sys2Proof/Safety.lean ====
section
/-! DEFINITION. What the part promises of every state: the bounds of its queues, the soundness of a bay engine, the bookkeeping of the event unit, the order of the tracker. A predicate here is what a claim about a run may rest on; that every step keeps it is stated in the obligations. -/

namespace Sys2Proof.Machine

/-! ### Packets (Tables 9-1 to 9-3) -/

/-- The size in bytes of a size code 1 to 4 (Table 9-3). -/
def codedSize (w0 : Word) : Nat := if bits w0 4 3 = 0 ∨ 4 < bits w0 4 3 then 0 else 2 ^ (bits w0 4 3 - 1)

/-- The payload length that Table 9-2 gives the kind of a header. -/
def requiredLength (w0 w2 : Word) : Nat :=
  match bits w0 28 4 with
  | 1 | 4 => if bits w0 4 3 = 4 then 2 else 1
  | 3 => (bits w2 0 9 * codedSize w0 + 3) / 4
  | _ => 0

/-- Some entry of Table 9-1 holds for a packet of three words or more. -/
def Malformed (w0 w1 w2 : Word) (payload : List Word) : Prop :=
  14 ≤ bits w0 28 4
    ∨ 512 < bits w0 7 10
    ∨ payload.length ≠ bits w0 7 10
    ∨ (bits w0 28 4 ≠ 12 ∧ bits w0 7 10 ≠ requiredLength w0 w2)
    ∨ (bits w0 28 4 = 12 ∧ bits w0 7 10 = 0)
    ∨ (bits w0 28 4 ≤ 4 ∧ (bits w0 4 3 = 0 ∨ 5 ≤ bits w0 4 3))
    ∨ (bits w0 28 4 = 4 ∧ (bits w0 4 3 = 1 ∨ bits w0 4 3 = 2))
    ∨ (5 ≤ bits w0 28 4 ∧ bits w0 4 3 ≠ 0)
    ∨ (bits w0 28 4 ≤ 4 ∧ ¬ codedSize w0 ∣ w1.toNat)
    ∨ ((bits w0 28 4 = 2 ∨ bits w0 28 4 = 3) ∧ (bits w2 0 9 = 0 ∨ 256 < bits w2 0 9))
    ∨ ((bits w0 28 4 = 2 ∨ bits w0 28 4 = 3) ∧ bits w0 2 2 = 0)
    ∨ (bits w0 28 4 ≠ 2 ∧ bits w0 28 4 ≠ 3 ∧ bits w0 2 2 ≠ 0)
    ∨ (bits w0 28 4 = 8 ∧ 15 < bits w2 16 8)
    ∨ (bits w0 28 4 = 9 ∧ 3 < bits w2 16 8)

/-- The request carries the fields that Table 9-3 reads from a header, and its payload. -/
def Request.Reads (r : Request) (w0 w1 w2 : Word) (payload : List Word) : Prop :=
  ReqKind.ofCode (bits w0 28 4) = some r.kind ∧ r.domain.val = bits w0 25 3 ∧ r.tag.toNat = bits w0 17 8 ∧ r.size = codedSize w0
    ∧ r.stride = Stride.ofCode (bits w0 2 2) ∧ r.word1 = w1 ∧ r.mask.toNat = bits w2 24 8 ∧ r.aux.toNat = bits w2 16 8
    ∧ r.count = bits w2 0 9 ∧ r.payload = payload

/-- The refusal carries the kind, domain and tag fields of a header, as read (R160, R161). -/
def UplinkRefusal.Refuses (f : UplinkRefusal) (w0 : Word) (st : Status) : Prop :=
  f.kindCode.toNat = bits w0 28 4 ∧ f.domain.val = bits w0 25 3 ∧ f.tag.toNat = bits w0 17 8 ∧ f.status = st

/-! ### The commands of the admission arbiter (R30 to R33) -/

/-- Command `c` is the arbiter's service of a request of `r`'s form: each kind of Table 9-5 has its row, CTL_WRITE one for each group and BAY_ACTION one for each action. -/
def commandServes (c : Instr) (r : Request) : Bool :=
  match c with
  | .read => r.kind == .read
  | .write => r.kind == .write
  | .blockRead => r.kind == .blockRead
  | .blockWrite => r.kind == .blockWrite
  | .fetchAdd => r.kind == .fetchAdd
  | .sync => r.kind == .sync
  | .claim => r.kind == .claim
  | .complete => r.kind == .complete
  | .threshold => r.kind == .threshold
  | .message => r.kind == .message
  | .clearService => r.kind == .clearService
  | .ctlRead => r.kind == .ctlRead
  | .ctlWriteAperture => r.kind == .ctlWrite && r.group == 1
  | .ctlWriteDomain => r.kind == .ctlWrite && r.group == 2
  | .ctlWriteGrant => r.kind == .ctlWrite && r.group == 3
  | .ctlWriteRoute => r.kind == .ctlWrite && r.group == 4
  | .ctlWriteDescriptor => r.kind == .ctlWrite && r.group == 5
  | .ctlWriteDescLimit => r.kind == .ctlWrite && r.group == 6
  | .ctlWriteBayPolicy => r.kind == .ctlWrite && r.group == 7
  | .ctlWriteOtherGroup => r.kind == .ctlWrite && (r.group == 0 || decide (7 < r.group))
  | .powerOn => r.kind == .bayAction && r.action == 1
  | .powerOff => r.kind == .bayAction && r.action == 2
  | .auxOn => r.kind == .bayAction && r.action == 3
  | .auxOff => r.kind == .bayAction && r.action == 4
  | .reset => r.kind == .bayAction && r.action == 5
  | .retry => r.kind == .bayAction && r.action == 6
  | .parkLight => r.kind == .bayAction && r.action == 7
  | .parkDeep => r.kind == .bayAction && r.action == 8
  | .wake => r.kind == .bayAction && r.action == 9
  | .captureClear => r.kind == .bayAction && r.action == 10
  | .bayActionUnknown => r.kind == .bayAction && (r.action == 0 || decide (10 < r.action))
  | _ => false

/-- What every service of the arbiter but RESET does and leaves, whatever the request and its outcome (R30, R32, R44).
The SYNCs that wait in the request's domain may go DONE with it (R56), and with them that domain's posted-fault flag. -/
structure State.Served (s : State) (t : Taken) (u : State) : Prop where
  /-- The request leaves the head of its intake queue; nothing else of the uplink changes. -/
  uplink : u.uplink = { s.uplink with intake := s.uplink.intake.set t.domain s.uplink.intake[t.domain].tail }
  /-- Its domain is the last served. -/
  lastServed : u.tables.lastServed = t.domain
  /-- Its entry joins the tail of the order taken. -/
  taken : u.tracker.taken = s.tracker.taken ++ [t.entry]
  /-- Its entry holds the request's identity. -/
  identity : u.tracker.entries[t.entry].domain = t.request.domain ∧ u.tracker.entries[t.entry].tag = t.request.tag
    ∧ u.tracker.entries[t.entry].kind = t.request.kind
  /-- Every other entry is as it was, but for a SYNC that waited in the same domain. -/
  others : ∀ e : EntryId, e ≠ t.entry →
    (s.tracker.entries[e].state = .waiting → s.tracker.entries[e].domain ≠ t.request.domain) →
    (s.tracker.entries[e].state = .done → s.tracker.entries[e].posted = false → s.tracker.entries[e].response.isSome = true) →
    u.tracker.entries[e] = s.tracker.entries[e]
  /-- The posted-fault flags of the other domains are as they were. -/
  postedFault : ∀ d : DomainId, d ≠ t.request.domain → u.tracker.postedFault[d] = s.tracker.postedFault[d]
  pending : u.pending = s.pending

/-- The request taken is answered at its admission: its entry is DONE, holds no translation, and its response, with these contents, has joined the response order (R46, R60, R164). -/
structure State.AnsweredWith (s : State) (t : Taken) (st : Status) (flags : Flags) (result : Word) (payload : List Word) (u : State) : Prop where
  state : u.tracker.entries[t.entry].state = .done
  xlat : u.tracker.entries[t.entry].xlat = none
  posted : u.tracker.entries[t.entry].posted = false
  response : u.tracker.entries[t.entry].response =
    some { domain := t.request.domain, tag := t.request.tag, status := st, unitsDone := 0, flags := flags, result := result, payload := payload }
  order : ∃ later, u.tracker.order = s.tracker.order ++ t.entry :: later

/-- The admission unit's tables are as they were, but for the last-served domain. -/
def State.TablesKept (s u : State) : Prop :=
  u.tables.apertures = s.tables.apertures ∧ u.tables.domains = s.tables.domains ∧ u.tables.grants = s.tables.grants
    ∧ u.tables.freeLevels = s.tables.freeLevels

/-- Steps 4 to 11 of Table 2-4 for a data request against its match `a`, each with the status of its failure: the span, the kind, the level, write protect, the port grants, the aux rail, the bay state and the module range (R8 to R10, R13, R29, R34, R35). -/
def State.AdmissionSteps (s : State) (r : Request) (a : Aperture) : List (Prop × Status) :=
  let writes : Prop := r.kind = .write ∨ r.kind = .blockWrite ∨ r.kind = .fetchAdd
  let b := s.bays[a.bay]
  [((a.first.toNat : Int) ≤ spanLow r ∧ spanHigh r ≤ a.last.toNat, .span),
   (¬ (r.kind = .fetchAdd ∧ a.kind = .port), .wrongKind),
   (s.tables.domains[r.domain].level ≤ a.level, .level),
   (writes → a.writeProtect = false, .writeProtect),
   (a.kind = .port → s.tables.freeLevels[a.bay] < s.tables.domains[r.domain].level →
      ∀ (k : Fin 8) (j : Nat), j < 32 → moduleLow r a / 16 ≤ 32 * k + j → 32 * k + j ≤ moduleHigh r a / 16 →
        (s.tables.grants[(⟨8 * r.domain.val + a.bay.val, by omega⟩ : Fin 64)][k]).getLsbD j = true, .portDenied),
   (writes → a.auxGated = true → b.auxRail = true, .railOff),
   ((b.state = .online ∨ b.state = .parking ∨ b.state = .parked ∨ b.state = .waking) ∧ b.drainRequested = false, .bayNotReady),
   (a.kind = .memory → ∃ id, b.identity = some id ∧ moduleHigh r a < idMemoryPages id * 4096, .range)]

/-- Every valid aperture record meets the conditions of Table 1-2 (R4). -/
def AdmissionUnit.AperturesSound (t : AdmissionUnit) : Prop := ∀ i : Fin 32, t.apertures[i].valid = true → t.apertures[i].sound = true

/-! ### The uplink (R161, R162) -/

/-- What the receiver has checked of a request that waits: a threshold is at most 15 and a channel at most 3 (R153, R154). -/
def Request.Formed (r : Request) : Prop :=
  (r.kind = .threshold → r.aux.toNat ≤ 15) ∧ (r.kind = .message → r.aux.toNat ≤ 3)

/-- Each intake queue holds at most 8 requests, all of its own domain and formed, and the refusal queue at most 8 refusals (R161, R162). -/
def Uplink.Bounded (u : Uplink) : Prop :=
  (∀ d : DomainId, u.intake[d].length ≤ Config.intakeDepth ∧ ∀ r ∈ u.intake[d], r.domain = d ∧ r.Formed)
    ∧ u.refusals.length ≤ Config.refusalDepth

/-! ### A bay engine (Chapters 4, 6 and 7) -/

/-- A lane record is sound: the flags and the dwell timer only in OPEN, the recovery timer only in CLOSING, no page in CLOSED (R72). -/
def Lane.Sound (l : Lane) : Prop :=
  (l.state ≠ .opened → l.dwellExpired = false ∧ l.releasePending = false ∧ l.pinned = false ∧ l.dwellTimer = none)
    ∧ (l.state ≠ .closing → l.recoveryTimer = none)
    ∧ (l.state = .closed → l.page = none)

/-- The states in which a bay timer runs (Table 6-1). -/
def BayState.timed : BayState → Bool
  | .seating | .powering | .held | .starting | .waking => true
  | .empty | .unpowered | .identifying | .online | .parking | .parked | .draining | .faulted => false

/-- The outputs of a bay are those of its state, and the aux rail is on exactly while the main rail is on and aux-wanted is set (Table 6-1, R107). -/
def Bay.OutputsSound (b : Bay) : Prop :=
  b.mainRail = b.state.powered ∧ b.moduleReset = b.state.inReset ∧ b.auxRail = (b.mainRail && b.auxWanted)

/-- What a bay holds is what its state holds: an identity record, a running poll timer and owed polls only in the five states in service, a bay timer, a depth and a fault cause exactly in their states, an identity read that has begun with its opening mark, and no rail-good in FAULTED (R102, R106, R110, R119, R124, R125, 7.4). -/
def Bay.HoldingsSound (b : Bay) : Prop :=
  b.identity.isSome = b.state.inService
    ∧ b.pollTimer.isSome = b.state.inService
    ∧ b.timer.isSome = b.state.timed
    ∧ b.depth.isSome = b.state.hasDepth
    ∧ (b.cause ≠ .none ↔ b.state = .faulted)
    ∧ (b.drainRequested = true → b.state.hasDepth = true)
    ∧ (b.state = .identifying → b.idLine = [.openingMark])
    ∧ (b.state = .faulted → b.railGood = false)

/-- The arbiter of the bay can choose: it acts in this state and the bus is free (R82). -/
def Bay.BusFree (b : Bay) : Prop := (b.state = .online ∨ b.state = .parking ∨ b.state = .draining) ∧ b.exchange = none ∧ b.unit = none

/-- The bus of a bay: owed polls 0..8 and 0 outside service, at most two consecutive timeouts between events, an exchange only where the arbiter acts, a unit only in ONLINE or DRAINING and never beside a poll, a decision point due only with the bus free, work only in service, and no wake cause standing in PARKED (R70, R82, R86, R102, R125, R134). -/
def Bay.BusSound (b : Bay) : Prop :=
  b.owed ≤ Config.owedMax
    ∧ (b.state.inService = false → b.owed = 0 ∧ b.queue = [])
    ∧ b.timeouts < Config.timeoutMax
    ∧ (b.exchange.isSome = true → b.state.arbitrates = true)
    ∧ (b.forced = true → b.state.arbitrates = true)
    ∧ (b.unit.isSome = true → b.state = .online ∨ b.state = .draining)
    ∧ (∀ x, b.exchange = some x → x.op = .poll → b.unit = none)
    ∧ (b.due = true → b.BusFree)
    ∧ (b.state = .parked → b.queue = [] ∧ b.owed < Config.owedMax ∧ b.drainRequested = false)

/-- A LIGHT park has come to its end: nothing is on the bus, no release is wanted and no lane is CLOSING (R133). -/
def Bay.LightParkOver (b : Bay) : Prop :=
  b.exchange = none ∧ ∀ l : LaneId, b.lanes[l].releasePending = false ∧ b.lanes[l].state ≠ .closing

/-- A DEEP park or a drain has come to its end: nothing is on the bus and every lane is CLOSED (R117, R133). -/
def Bay.AllClosed (b : Bay) : Prop := b.exchange = none ∧ ∀ l : LaneId, b.lanes[l].state = .closed

/-- No park or drain that could end has not ended, and a drain with an empty queue has made its release-all (R80, R117, R133). -/
def Bay.Settled (b : Bay) : Prop :=
  (b.state = .parking → (b.depth = some .light → ¬ b.LightParkOver) ∧ (b.depth = some .deep → ¬ b.AllClosed))
    ∧ (b.state = .draining → b.queue = [] → ¬ b.AllClosed
        ∧ ∀ l : LaneId, b.lanes[l].state = .opened → b.lanes[l].pinned = false → b.lanes[l].releasePending = true)

/-- A bay engine is sound. -/
def Bay.Sound (b : Bay) : Prop :=
  b.OutputsSound ∧ b.HoldingsSound ∧ b.BusSound ∧ b.Settled ∧ ∀ l : LaneId, b.lanes[l].Sound

/-- Every bay engine is sound. -/
def State.BaysSound (s : State) : Prop := ∀ b : BayId, s.bays[b].Sound

/-- What stands on the identity line when the bay leaves its state: a read that was under way is ended with the closing mark (R110, R113). -/
def Bay.lineLeft (b : Bay) : List LineAct := if b.state = .identifying then b.idLine ++ [.closingMark] else b.idLine

/-! ### Park, wake and drain (R80, R117, R133 to R135) -/

/-- The lanes of the bay after its release-all (R80, R81). -/
def Bay.LanesReleased (b : Bay) (lanes : Vector Lane 4) : Prop :=
  ∀ l : LaneId, lanes[l] = if b.lanes[l].state = .opened ∧ b.lanes[l].pinned = false then { b.lanes[l] with releasePending := true } else b.lanes[l]

/-- What a DRAINING bay becomes by itself at the end of an event: with work in its queue it stays; with every lane CLOSED and nothing on the bus it is UNPOWERED; and otherwise it makes its release-all, which calls the arbiter where it finds a lane to release (R80, R82, R117). -/
def Bay.Drains (b after : Bay) : Prop :=
  (b.queue ≠ [] → after = b)
    ∧ (b.queue = [] → b.AllClosed → after = { b with
        state := .unpowered, mainRail := false, auxRail := false, moduleReset := true, railGood := false
        identity := none, pollTimer := none, owed := 0, forced := false, due := false })
    ∧ (b.queue = [] → ¬ b.AllClosed → ∃ lanes : Vector Lane 4, b.LanesReleased lanes
        ∧ (lanes = b.lanes → after = b) ∧ (lanes ≠ b.lanes → after = { b with lanes := lanes }.callArbiter))

/-- What a parked bay becomes when a wake cause holds: WAKING, for 5 µs after a LIGHT park and for the deep wake time after a DEEP one; a wake of 0 ends at once, in ONLINE, or in a drain where one is requested, with a decision point due (R82, R116, R134, R135). -/
def Bay.Wakes (b after : Bay) : Prop :=
  ∀ n : Nat, (b.depth = some .light → n = 5) → (b.depth = some .deep → ∀ id, b.identity = some id → n = idDeepWake id) →
    let woken : Bay := { b with state := .online, depth := none, timeouts := 0, forced := false, due := true }
    (n ≠ 0 → after = { b with state := .waking, forced := false, due := false, timer := some n })
    ∧ (n = 0 → b.drainRequested = false → after = woken)
    ∧ (n = 0 → b.drainRequested = true → { woken with state := .draining, drainRequested := false }.Drains after)

/-- The park of the bay has come to its end (R133). -/
def Bay.ParkOver (b : Bay) : Prop := (b.depth = some .light ∧ b.LightParkOver) ∨ (b.depth = some .deep ∧ b.AllClosed)

/-- What a bay becomes by itself at the end of an event: a park that is over is PARKED, or wakes at once where work waits, 8 polls are owed or a drain is requested; a drain goes on; any other bay stays (R117, R133, R134). -/
def Bay.Settles (b after : Bay) : Prop :=
  (b.state ≠ .parking → b.state ≠ .draining → after = b)
    ∧ (b.state = .draining → b.Drains after)
    ∧ (b.state = .parking → ¬ b.ParkOver → after = b)
    ∧ (b.state = .parking → b.ParkOver → b.queue = [] → b.owed ≠ 8 → b.drainRequested = false →
        after = { b with state := .parked, forced := false, due := false })
    ∧ (b.state = .parking → b.ParkOver → b.queue ≠ [] ∨ b.owed = 8 ∨ b.drainRequested = true → b.Wakes after)

/-- What the arrival of the entries `es` makes of a bay: they join the tail of its queue; the first of them, in an empty queue, brings a decision point where the bus is free, and wakes a PARKED bay (R42, R82, R134). -/
def Bay.Receives (b : Bay) (es : List EntryId) (after : Bay) : Prop :=
  (es = [] → after = b)
    ∧ (es ≠ [] → b.state ≠ .parked → b.queue = [] → b.BusFree → after = { b with queue := es, due := true })
    ∧ (es ≠ [] → b.state ≠ .parked → b.queue ≠ [] ∨ ¬ b.BusFree → after = { b with queue := b.queue ++ es })
    ∧ (es ≠ [] → b.state = .parked → { b with queue := b.queue ++ es }.Wakes after)

/-! ### The event unit (Chapter 8) -/

/-- Domain `d` has been re-examined in `u`, where its delivery state stood at `y`: a notice is made ready if an item is deliverable and the signal flag is clear, and otherwise nothing changes (R145, R146). -/
def State.ReexaminedFrom (u : State) (d : DomainId) (y : Delivery) : Prop :=
  (y.signal = false ∧ (∃ it, u.deliverable d it = true) → u.events.delivery[d] = { y with signal := true, notice := true })
    ∧ (y.signal = true ∨ (∀ it, u.deliverable d it = false) → u.events.delivery[d] = y)

/-- The routes, the descriptors and the descriptor limit are as they were. -/
def EventUnit.TablesKept (u v : EventUnit) : Prop := v.routes = u.routes ∧ v.descriptors = u.descriptors ∧ v.limit = u.limit

/-- A domain with a deliverable item has its signal flag set (R145, R146). -/
def State.Signalled (s : State) : Prop := ∀ (d : DomainId) (it : Item), s.deliverable d it = true → s.events.delivery[d].signal = true

/-- A notice waits only for a domain whose signal flag is set (R146). -/
def EventUnit.NoticesSignalled (u : EventUnit) : Prop := ∀ d : DomainId, u.delivery[d].notice = true → u.delivery[d].signal = true

/-- The priorities of every in-service list are at least 1 and strictly increase from oldest to newest; the list holds the newest first (R143). -/
def EventUnit.Nested (u : EventUnit) : Prop :=
  ∀ d : DomainId, u.delivery[d].inService.Pairwise (fun newer older => older.priority < newer.priority)
    ∧ ∀ x ∈ u.delivery[d].inService, (1 : Fin 16) ≤ x.priority

/-- An entry for the item stands on the list of `d`. -/
def EventUnit.serves (u : EventUnit) (d : DomainId) (it : Item) : Prop := ∃ x ∈ u.delivery[d].inService, itemOf d x.source = it

/-- An item's active mark is set exactly while an entry for it stands in some list, and it stands at most once in all lists together (R143). -/
def EventUnit.Marked (u : EventUnit) : Prop :=
  (∀ it : Item, u.isActive it = true ↔ ∃ d, u.serves d it)
    ∧ (∀ (d e : DomainId) (it : Item), u.serves d it → u.serves e it → d = e)
    ∧ ∀ d : DomainId, (u.delivery[d].inService.map (·.source)).Nodup

/-! ### The tracker (Chapter 3) -/

/-- Each entry stands at most once in the order taken, every entry that stands there is in use, a HELD one holds a translation, a WAITING one is a SYNC, not posted and without a response, and a response is ready only for a posted or a DONE one and always for a DONE one (R41, R44, R51, R56, R60). -/
def Tracker.Listed (t : Tracker) : Prop :=
  t.taken.Nodup ∧ (∀ e ∈ t.taken, t.entries[e].state ≠ .free)
    ∧ (∀ e ∈ t.taken, t.entries[e].state = .held → t.entries[e].xlat.isSome = true)
    ∧ (∀ e ∈ t.taken, t.entries[e].state = .waiting → t.entries[e].kind = .sync ∧ t.entries[e].posted = false ∧ t.entries[e].response = none)
    ∧ (∀ e ∈ t.taken, t.entries[e].response.isSome = true → t.entries[e].posted = true ∨ t.entries[e].state = .done)
    ∧ ∀ e ∈ t.taken, t.entries[e].state = .done → t.entries[e].response.isSome = true

/-- The entry is with its bay: in its queue, begun or not. -/
def EntryState.atBay : EntryState → Bool
  | .queued | .running | .suspended => true
  | .free | .held | .waiting | .done => false

/-- No non-posted entry through a STRICT aperture is at its bay while a posted write of its domain taken before it is incomplete (3.5). -/
def Tracker.StrictOrder (t : Tracker) : Prop :=
  ∀ e ∈ t.taken, t.entries[e].state.atBay = true → t.entries[e].posted = false →
    ∀ x, t.entries[e].xlat = some x → x.ordering = .strict → t.earlierPosted e = false

/-- The tracker is in order. -/
def Tracker.InOrder (t : Tracker) : Prop := t.Listed ∧ t.StrictOrder

/-- No SYNC of `d` waits whose earlier entries of `d` are all DONE (R56). -/
def Tracker.SyncsWait (t : Tracker) (d : DomainId) : Prop :=
  ∀ e ∈ t.taken, t.entries[e].state = .waiting → t.entries[e].domain = d →
    ∃ x ∈ t.before e, t.entries[x].domain = d ∧ t.entries[x].state ≠ .done

/-- Every hold list of `d` is stopped: the oldest entry of it goes through a STRICT aperture, is not posted, and was taken after a posted write of `d` that is incomplete (R51, R53). -/
def Tracker.HoldsStopped (t : Tracker) (d : DomainId) : Prop :=
  ∀ e ∈ t.taken, t.entries[e].state = .held → t.entries[e].domain = d → ∀ x, t.entries[e].xlat = some x →
    t.earlierHeld e x.bay = false → t.entries[e].posted = false ∧ x.ordering = .strict ∧ t.earlierPosted e = true

/-- Nothing that the rules let go still waits: neither a SYNC nor the oldest entry of a hold list (R53, R54, R56). -/
def Tracker.Examined (t : Tracker) : Prop := ∀ d : DomainId, t.SyncsWait d ∧ t.HoldsStopped d

/-- What entry `e`, whose record was `x`, has become in `t` by the end of its work with `st`: not posted, DONE with its response ready; marked discard, freed; posted, DONE where its response is still ready and freed otherwise (R43, R46, R49, R58, R65). -/
def Tracker.Ended (t : Tracker) (e : EntryId) (x : Entry) (st : Status) : Prop :=
  (x.posted = false → x.discard = false → ∃ n, t.entries[e] = { x with
      state := .done, status := st, seq := some n
      response := some { domain := x.domain, tag := x.tag, status := st, unitsDone := if x.kind.isBlock then x.unitsDone else 0
                         flags := { x.flags with carry := x.carry }, result := x.result, payload := if x.kind.returnsBuffer then x.buffer else [] } })
    ∧ (x.posted = true → x.response.isSome = true → t.entries[e] = { x with state := .done, status := st })
    ∧ ((x.posted = true → x.response = none) → (x.posted = false → x.discard = true) → t.entries[e].state = .free ∧ e ∉ t.taken)

/-- A SYNC of `d` that waited in `s` has gone DONE in `u`, and its response carries POSTED_FAULT (R57). -/
def State.FlagTaken (s u : State) (d : DomainId) : Prop :=
  ∃ (y : EntryId) (r : Response), s.tracker.entries[y].state = .waiting ∧ s.tracker.entries[y].domain = d
    ∧ u.tracker.entries[y].response = some r ∧ r.flags.postedFault = true

/-! ### The bay bus arbiter (R83, R84, R93) -/

/-- A forced run is in force at a decision point: 8 polls are owed, or the run has begun and some are still owed (R84). -/
def Bay.ForcedRun (b : Bay) : Prop := b.owed = 8 ∨ b.forced = true ∧ b.owed ≠ 0

/-- The RELEASE of lane `l` may be issued (R83 step 2). -/
def Bay.Releasable (b : Bay) (l : LaneId) : Prop :=
  b.lanes[l].releasePending = true ∧ b.lanes[l].dwellExpired = true ∧ b.lanes[l].pinned = false

/-- Entry `c`, with the entries `ahead` before it in its bay queue, may be interjected into block `e` (R93). -/
def Tracker.Candidate (t : Tracker) (e : EntryId) (ahead : List EntryId) (c : EntryId) : Prop :=
  t.entries[c].state = .queued ∧ t.entries[c].kind ≠ .blockRead ∧ t.entries[c].kind ≠ .blockWrite ∧ t.entries[c].domain ≠ t.entries[e].domain
    ∧ ∀ x ∈ ahead, t.entries[x].domain ≠ t.entries[c].domain

/-- The block stands at one of its interjection points (R93). -/
def Entry.AtInterjection (x : Entry) : Prop :=
  (x.kind = .blockRead ∨ x.kind = .blockWrite) ∧ 0 < x.unitsDone ∧ 32 ∣ x.unitsDone ∧ x.unitsDone < x.count

/-! ### Units (R17, R76, R81, R97) -/

/-- The first data exchange of a unit is issued on the bay; a FETCH_ADD pins its lane (R17, R81, R97). -/
def Bay.DataBegins (b : Bay) (u : UnitRun) (after : Bay) : Prop :=
  let pins (p : LanePlace) : Vector Lane 4 := if u.dir = .fetchAdd then b.lanes.set p.lane { b.lanes[p.lane] with pinned := true } else b.lanes
  let lanes : Vector Lane 4 := match u.place with
    | some p => pins p
    | none => b.lanes
  (u.dir = .write → after = { b with lanes := lanes, unit := some { u with phase := .writing 0 }
                                     exchange := some { op := u.writeOp 0, timeout := b.policy.exchangeTimeout } })
    ∧ (u.dir ≠ .write → after = { b with lanes := lanes, unit := some { u with phase := .reading 0 }
                                         exchange := some { op := u.readOp 0, timeout := b.policy.exchangeTimeout } })

/-- SELECT of the unit's page is issued on its lane (R73, R76). -/
def Bay.selects (b : Bay) (u : UnitRun) (p : LanePlace) : Bay :=
  { b with lanes := b.lanes.set p.lane { Lane.shut with state := .opening, page := some p.page }
           unit := some { u with phase := .selecting }
           exchange := some { op := .select p.lane p.page, timeout := b.policy.exchangeTimeout } }

/-- Lane `l` is CLOSING with its recovery running, or CLOSED at once where the recovery is 0 (R73, R75). -/
def Bay.recovering (b : Bay) (l : LaneId) : Vector Lane 4 :=
  b.lanes.set l (if b.recovery = 0 then Lane.shut
    else { Lane.shut with state := .closing, page := b.lanes[l].page, recoveryTimer := some b.recovery })

/-- The unit is over: its lane is no longer pinned, and under CLOSE it is release-pending where it is OPEN (R79, R81). -/
def Bay.unitOver (b : Bay) (u : UnitRun) : Bay :=
  { b with exchange := none, unit := none
           lanes := match u.place with
             | some p => b.lanes.set p.lane { b.lanes[p.lane] with
                 pinned := false
                 releasePending := if u.policy = .close ∧ b.lanes[p.lane].state = .opened then true else b.lanes[p.lane].releasePending }
             | none => b.lanes }

/-! ### The tracker and the bays together (R42, R60) -/

/-- Every bay queue holds exactly the entries that are at that bay, each once, and the unit under way is one of the RUNNING entry of its queue (R42, R58, R85). -/
def State.QueuesSound (s : State) : Prop :=
  (∀ b : BayId, s.bays[b].queue.Nodup
    ∧ (∀ e ∈ s.bays[b].queue, e ∈ s.tracker.taken ∧ s.tracker.entries[e].state.atBay = true ∧ ∃ x, s.tracker.entries[e].xlat = some x ∧ x.bay = b)
    ∧ ∀ u, s.bays[b].unit = some u → u.entry ∈ s.bays[b].queue ∧ s.tracker.entries[u.entry].state = .running)
  ∧ ∀ e ∈ s.tracker.taken, s.tracker.entries[e].state.atBay = true → ∃ x, s.tracker.entries[e].xlat = some x ∧ e ∈ s.bays[x.bay].queue

/-- The response order holds exactly the entries whose response is ready, each once (R60). -/
def Tracker.Answering (t : Tracker) : Prop :=
  t.order.Nodup ∧ ∀ e : EntryId, e ∈ t.order ↔ e ∈ t.taken ∧ t.entries[e].response.isSome = true

/-- The tracker's lists and the bay queues agree with its entries. -/
def State.WorkSound (s : State) : Prop := s.tracker.Listed ∧ s.tracker.Answering ∧ s.QueuesSound

/-- What an event that aborts the queue of bay `b` makes of the part, the bay itself ending as `after` (R50, R54, R55, R60, R62, R63). -/
structure State.Aborted (s : State) (b : BayId) (st : Status) (after : Bay) (u : State) : Prop where
  bay : u.bays[b] = after
  /-- Another bay gets at most entries that were HELD for it, which are QUEUED there. -/
  others : ∀ x : BayId, x ≠ b → (s.bays[x].state = .parked → s.bays[x].Sound) → ∃ released : List EntryId,
    s.bays[x].Receives released u.bays[x] ∧ ∀ e ∈ released, s.tracker.entries[e].state = .held ∧ u.tracker.entries[e].state = .queued
  /-- Every entry of the queue ends with the abort status. -/
  ended : ∀ e ∈ s.bays[b].queue, u.tracker.Ended e s.tracker.entries[e] st
  /-- The responses made ready join the tail of the response order, those of the aborted entries in queue order and the others in the order taken; where the queue holds its entries in the order taken, so do all of them. Another response comes after those of all entries taken before it, and an aborted entry taken after it comes before it only where the queue holds it before one that was taken before it. -/
  order : ∃ joined, u.tracker.order = s.tracker.order ++ joined
    ∧ (let answered := s.bays[b].queue.filter fun e => !s.tracker.entries[e].posted && !s.tracker.entries[e].discard
       (joined.filter fun e => s.bays[b].queue.contains e) = answered
       ∧ (joined.filter fun e => !s.bays[b].queue.contains e).Sublist s.tracker.taken
       ∧ (answered.Sublist s.tracker.taken → joined.Sublist s.tracker.taken)
       ∧ ∀ ahead x behind, joined = ahead ++ x :: behind → x ∉ s.bays[b].queue →
           (∀ y ∈ behind, y ∉ s.tracker.before x)
           ∧ ∀ first y mid, ahead = first ++ y :: mid → x ∈ s.tracker.before y → ∃ a ∈ mid, a ∈ s.bays[b].queue ∧ a ∈ s.tracker.before x)
  /-- A posted entry of the queue takes the posted failure path: its domain's posted-fault flag is set, unless a SYNC that goes DONE in the event takes it. -/
  faultFlag : ∀ e ∈ s.bays[b].queue, s.tracker.entries[e].posted = true →
    u.tracker.postedFault[s.tracker.entries[e].domain] = true ∨ s.FlagTaken u s.tracker.entries[e].domain
  /-- The flag of a domain without such an entry is as it was, unless a SYNC takes it. -/
  otherFlags : ∀ d : DomainId, (∀ e ∈ s.bays[b].queue, s.tracker.entries[e].domain = d → s.tracker.entries[e].posted = false) →
    u.tracker.postedFault[d] = s.tracker.postedFault[d] ∨ u.tracker.postedFault[d] = false ∧ s.FlagTaken u d
  /-- The first such entry of the queue fills an invalid capture record. -/
  firstOffer : s.capture = none → ∀ e rest, (s.bays[b].queue.filter fun e => s.tracker.entries[e].posted) = e :: rest →
    ∃ more, u.capture = some { more := more, offer := { kind := st.offerKind, who := some (s.tracker.entries[e].domain, s.tracker.entries[e].tag), bay := some b
                                                        xlat := s.tracker.entries[e].xlat.map fun x => (x.aperture, x.addr) } }
  /-- Such an entry raises POSTED_FAULT at the bay. -/
  latched : (∃ e ∈ s.bays[b].queue, s.tracker.entries[e].posted = true) → s.bays[b].policy.sense.getLsbD CondKind.postedFault.index = true →
    u.events.isPending (.bay (baySource b CondKind.postedFault.index)) = true
  /-- Without one, neither the capture record, nor the event unit, nor another bay changes. -/
  quiet : (∀ e ∈ s.bays[b].queue, s.tracker.entries[e].posted = false) →
    u.capture = s.capture ∧ u.events = s.events ∧ ∀ x : BayId, x ≠ b → u.bays[x] = s.bays[x]
  /-- A HELD entry for the bay is stale, or has failed in this event. -/
  stale : ∀ e ∈ s.tracker.taken, ∀ x, s.tracker.entries[e].state = .held → s.tracker.entries[e].xlat = some x → x.bay = b →
    (u.tracker.entries[e].state = .held ∧ u.tracker.entries[e].stale = true)
      ∨ (u.tracker.entries[e].state = .done ∧ u.tracker.entries[e].status = .bayNotReady) ∨ u.tracker.entries[e].state = .free
  /-- An entry that is not of the queue, nor HELD, nor WAITING, is as it was. -/
  kept : ∀ e ∈ s.tracker.taken, e ∉ s.bays[b].queue → s.tracker.entries[e].state ≠ .held → s.tracker.entries[e].state ≠ .waiting →
    u.tracker.entries[e] = s.tracker.entries[e]
  uplink : u.uplink = s.uplink
  tables : u.tables = s.tables
  events : s.events.TablesKept u.events
  pending : u.pending = s.pending

/-! ### Bay actions (R39) -/

/-- The arbiter's next service is a BAY_ACTION of code `c` that passes steps 1 and 2 of admission. -/
def State.TakesAction (s : State) (t : Taken) (c : Nat) : Prop :=
  s.nextTaken = some t ∧ t.request.kind = .bayAction ∧ t.request.action = c
    ∧ s.tables.domains[t.request.domain].enabled = true ∧ s.tables.domains[t.request.domain].level = 0

/-- The action is answered with `st`, its bay becomes `b`, and nothing else changes but by the service. -/
def State.ActionAnswered (s : State) (t : Taken) (st : Status) (b : Bay) (u : State) : Prop :=
  s.Served t u ∧ s.AnsweredWith t st {} 0 [] u ∧ s.TablesKept u ∧ u.bays = s.bays.set t.request.actionBay b ∧ u.events = s.events ∧ u.capture = s.capture

/-! ### Control requests (R166) -/

/-- Table 10-1: the code of each group, whether CTL_WRITE may write it, the number of its indices and the length of its records in words. -/
def recordGroups : List (Nat × Bool × Nat × Nat) :=
  [(1, true, 32, 4), (2, true, 8, 1), (3, true, 64, 8), (4, true, 68, 1), (5, true, 256, 2), (6, true, 1, 1), (7, true, 8, 2)]
    ++ [(8, false, 8, 6), (9, false, 8, 9), (10, false, 8, 1), (11, false, 8, 16), (12, false, 1, 4), (13, false, 1, 3), (14, false, 1, 2)]

/-- The request names a record of Table 10-1. -/
def Request.NamesRecord (r : Request) : Prop := ∃ row ∈ recordGroups, r.group = row.1 ∧ r.index < row.2.2.1

/-- The request names a record that may be written, and carries one of its length. -/
def Request.CarriesRecord (r : Request) : Prop :=
  ∃ row ∈ recordGroups, r.group = row.1 ∧ row.2.1 = true ∧ r.index < row.2.2.1 ∧ r.payload.length = row.2.2.2

/-- The arbiter's next service is a CTL_WRITE of group `g` and index `i` that passes steps 1 and 2 of admission. -/
def State.TakesWrite (s : State) (t : Taken) (g i : Nat) : Prop :=
  s.nextTaken = some t ∧ t.request.kind = .ctlWrite ∧ t.request.group = g ∧ t.request.index = i
    ∧ s.tables.domains[t.request.domain].enabled = true ∧ s.tables.domains[t.request.domain].level = 0

/-- The write is answered with `st`, and `tables`, the bays and the event unit are as given; the rest changes only by the service. -/
def State.WriteAnswered (s : State) (t : Taken) (st : Status) (tables : AdmissionUnit) (bays : Vector Bay 8) (events : EventUnit) (u : State) : Prop :=
  s.Served t u ∧ s.AnsweredWith t st {} 0 [] u ∧ u.tables = { tables with lastServed := t.domain } ∧ u.bays = bays ∧ u.events = events ∧ u.capture = s.capture

/-- The conditions of Table 1-2 on the four words of an aperture record; the width code is 0 to 2 (Table 9-8). -/
def apertureFits (w0 w1 w2 w3 : Word) : Prop :=
  let unit : Nat := if bits w3 1 1 = 0 then 4096 else 16
  let space : Nat := if bits w3 1 1 = 0 then 2 ^ 28 else 4096
  w0.toNat ≤ w1.toNat ∧ unit ∣ w0.toNat ∧ unit ∣ w1.toNat + 1 ∧ unit ∣ w2.toNat ∧ w2.toNat + (w1.toNat - w0.toNat + 1) ≤ space
    ∧ bits w3 5 2 ≠ 3 ∧ (bits w3 1 1 = 1 → bits w3 7 1 = 0)

/-- The aperture record holds the fields of four words (Table 9-8). -/
def Aperture.Reads (a : Aperture) (w0 w1 w2 w3 : Word) : Prop :=
  a.valid = true ∧ a.first = w0 ∧ a.last = w1 ∧ a.offset = w2 ∧ (a.kind = .port ↔ bits w3 1 1 = 1) ∧ a.bay.val = bits w3 2 3
    ∧ (a.width = .w8 ↔ bits w3 5 2 = 0) ∧ (a.width = .w16 ↔ bits w3 5 2 = 1) ∧ (a.policy = .close ↔ bits w3 7 1 = 1)
    ∧ (a.posting = true ↔ bits w3 8 1 = 1) ∧ (a.ordering = .relaxed ↔ bits w3 9 1 = 1) ∧ (a.writeProtect = true ↔ bits w3 10 1 = 1)
    ∧ (a.auxGated = true ↔ bits w3 11 1 = 1) ∧ a.level.val = bits w3 12 2 ∧ a.mask.toNat = bits w3 16 8

end Sys2Proof.Machine
end

