-- ==== Sys2Proof/Certificates/Slice0/Obligations.lean ====
section
/-! DEFINITION. The statements about the part, for the provers. Each holds for every state that meets its hypotheses; an invariant of Sys2Proof/Safety.lean that stands among them is stated on its own as one that every step keeps. -/

open Sys2Proof Sys2Proof.Machine

/-! ### The machine -/

/-- A step is `exec` of the command at the front of the queue, on the queue's rest. On an empty queue the part idles: the spec gives no such step, and this clause is the model's choice (log 3). -/
def Obligations.StepRunsFrontCommand : Prop :=
  (∀ (c : Instr) (rest : List Instr) (s : State), step { s with pending := c :: rest } = exec c { s with pending := rest })
    ∧ ∀ s : State, s.pending = [] → step s = .next s

/-- What a power-on reset leaves: the values of R2, Table 2-2, R27, R28, R30, R66, Tables 6-2, 6-6, 4-5, 8-1, 8-2, 8-3, R157, R158 and R170. -/
def Obligations.ResetHoldsPowerOnValues : Prop :=
  let s := State.reset
  (s.uplink.link = .down ∧ (∀ d : DomainId, s.uplink.intake[d] = []) ∧ s.uplink.refusals = [])
    ∧ (∀ i : Fin 32, s.tables.apertures[i].words = [0, 0, 0, 0])
    ∧ (∀ d : DomainId, s.tables.domains[d] = if d = 0 then { enabled := true, level := 0, spurious := 255 } else { enabled := false, level := 3, spurious := 255 })
    ∧ (∀ b : BayId, s.tables.freeLevels[b] = 0)
    ∧ (∀ (g : Fin 64) (k : Fin 8), s.tables.grants[g][k] = 0)
    ∧ s.tables.lastServed = 7
    ∧ (∀ e : EntryId, s.tracker.entries[e].state = .free)
    ∧ s.tracker.taken = [] ∧ s.tracker.order = [] ∧ s.tracker.nextSeq = 0 ∧ (∀ d : DomainId, s.tracker.postedFault[d] = false)
    ∧ (∀ b : BayId, s.bays[b].state = .empty ∧ s.bays[b].mainRail = false ∧ s.bays[b].auxRail = false ∧ s.bays[b].moduleReset = true
        ∧ s.bays[b].auxWanted = false ∧ s.bays[b].drainRequested = false ∧ s.bays[b].cause = .none ∧ s.bays[b].identity = none
        ∧ s.bays[b].timer = none ∧ s.bays[b].pollTimer = none ∧ s.bays[b].owed = 0 ∧ s.bays[b].timeouts = 0 ∧ s.bays[b].forced = false
        ∧ s.bays[b].lastStatus = { ready := false, attention := false, supplyWarn := false, supplyFail := false, code := 0 }
        ∧ s.bays[b].policy = { power := .manual, readyTimeout := 500, exchangeTimeout := 64, pollOverride := 0, sense := 0 }
        ∧ s.bays[b].queue = [] ∧ s.bays[b].exchange = none ∧ s.bays[b].due = false
        ∧ ∀ l : LaneId, s.bays[b].lanes[l].state = .closed ∧ s.bays[b].lanes[l].page = none)
    ∧ (∀ i : Fin 68, s.events.routes[i] = { masked := true, priority := 0, vector := 0, destination := 0 })
    ∧ (∀ v : Fin 256, s.events.descriptors[v] = { present := false, kind := .tracked, messageLevel := 0, handler := 0 })
    ∧ s.events.limit = 0
    ∧ (∀ it : Item, s.events.isPending it = false ∧ s.events.isActive it = false)
    ∧ (∀ d : DomainId, s.events.delivery[d] = { threshold := 15, signal := false, notice := false, inService := [] })
    ∧ s.capture = none

/-! ### The device and the link -/

/-- POWER_ON_RESET takes every block but the bays to its power-on values, and every bay to Table 6-2; a bay with both contacts made is SEATING with its debounce running (R40, R66, R103, R155, R158, R170).
That nothing then stands on the outbound link (log 5) or on an identity line (log 34), that the inputs of a bay stay as they are (log 7), and that the queue of waiting commands stays (log 27) are the model's choices. -/
def Obligations.PowerOnResetRestoresPowerOnValues : Prop :=
  ∀ s : State, ∃ u, exec .powerOnReset s = .next u
    ∧ u.uplink = State.reset.uplink ∧ u.tables = State.reset.tables ∧ u.tracker = State.reset.tracker ∧ u.events = State.reset.events
    ∧ u.capture = none ∧ u.pending = s.pending
    ∧ ∀ b : BayId, u.bays[b] = { State.reset.bays[b] with
        contactFirst := s.bays[b].contactFirst, contactSecond := s.bays[b].contactSecond
        railGood := s.bays[b].railGood, moduleReady := s.bays[b].moduleReady
        state := if s.bays[b].contactFirst && s.bays[b].contactSecond then .seating else .empty
        timer := if s.bays[b].contactFirst && s.bays[b].contactSecond then some 20000 else none }

/-- LINK_GAINED takes the link UP and does nothing else. LINK_LOST on a link that is UP is a link reset: the receiver's queues are empty, the last-served domain is 7, no response is ready, every entry still in use is with its bay and is posted or marked discard, and the tables, thresholds, lists and marks are kept. A bay keeps everything but its queue, which loses the entries that are freed and gains those that are let go, with what these arrivals bring; a drain whose queue is then empty goes on. On a link that is DOWN nothing changes (R40, R64, R65, R82, R87, R103, R117, R134, R155, R157, R158).
That the packet on the outbound link is cut off is the model's inference (log 26). -/
def Obligations.LinkEventsResetTheLink : Prop :=
  ∀ s : State,
    exec .linkGained s = .next { s with uplink := { s.uplink with link := .up } }
    ∧ (s.uplink.link = .down → exec .linkLost s = .next s)
    ∧ (s.uplink.link = .up → s.tracker.Listed → ∃ u, exec .linkLost s = .next u
        ∧ u.uplink = { link := .down, intake := Vector.replicate 8 [], refusals := [], outLink := none }
        ∧ u.tables = { s.tables with lastServed := 7 }
        ∧ u.tracker.order = [] ∧ u.tracker.nextSeq = s.tracker.nextSeq
        ∧ (∀ e ∈ u.tracker.taken, u.tracker.entries[e].state.atBay = true ∧ u.tracker.entries[e].response = none
            ∧ (u.tracker.entries[e].posted = true ∨ u.tracker.entries[e].discard = true))
        ∧ (∀ d : DomainId, s.tracker.postedFault[d] = true → u.tracker.postedFault[d] = true)
        ∧ u.events.routes = s.events.routes ∧ u.events.descriptors = s.events.descriptors ∧ u.events.limit = s.events.limit
        ∧ (∀ it : Item, u.events.isActive it = s.events.isActive it ∧ (s.events.isPending it = true → u.events.isPending it = true))
        ∧ (∀ d : DomainId, u.events.delivery[d].threshold = s.events.delivery[d].threshold
            ∧ u.events.delivery[d].inService = s.events.delivery[d].inService
            ∧ u.events.delivery[d].notice = u.events.delivery[d].signal
            ∧ (u.events.delivery[d].signal = true ↔ ∃ it, u.deliverable d it = true))
        ∧ (∀ b : BayId, u.bays[b].policy = s.bays[b].policy ∧ u.bays[b].lastStatus = s.bays[b].lastStatus
            ∧ u.bays[b].exchange = s.bays[b].exchange ∧ u.bays[b].unit = s.bays[b].unit ∧ u.bays[b].auxWanted = s.bays[b].auxWanted)
        ∧ (s.WorkSound → ∀ b : BayId, s.bays[b].Sound → ∃ kept arrived : List EntryId, kept.Sublist s.bays[b].queue
            ∧ (∀ e ∈ s.bays[b].queue, e ∈ kept ↔ s.tracker.entries[e].posted = true ∨ ∃ run, s.bays[b].unit = some run ∧ run.entry = e)
            ∧ (∀ e ∈ arrived, s.tracker.entries[e].state = .held ∧ s.tracker.entries[e].posted = true)
            ∧ (s.bays[b].state ≠ .draining → { s.bays[b] with queue := kept }.Receives arrived u.bays[b])
            ∧ (s.bays[b].state = .draining → { s.bays[b] with queue := kept }.Drains u.bays[b]))
        ∧ u.pending = s.pending)

/-! ### The receiver and the transmitter -/

/-- A packet of fewer than three words is discarded and offered to the capture as RUNT_PACKET, with nothing else known of it; a packet that meets an entry of Table 9-1 is refused MALFORMED, at the tail of the refusal queue; and nothing else changes (R159, R160). While the link is DOWN or the refusal queue holds 8 refusals, the receiver takes no packet: that the packet then waits outside the part is the model's choice (log 6). -/
def Obligations.RuntAndMalformedPacketsAreNotPlaced : Prop :=
  (∀ (words : List Word) (s : State), words.length < 3 → s.uplink.link = .up → s.uplink.refusals.length < 8 →
    exec (.packetReceived words) s = .next (s.offer { kind := .runtPacket, who := none, bay := none, xlat := none }))
  ∧ (∀ (w0 w1 w2 : Word) (payload : List Word) (s : State), s.uplink.link = .up → s.uplink.refusals.length < 8 → Malformed w0 w1 w2 payload →
    ∃ f : UplinkRefusal, f.Refuses w0 .malformed
      ∧ exec (.packetReceived (w0 :: w1 :: w2 :: payload)) s = .next { s with uplink := { s.uplink with refusals := s.uplink.refusals ++ [f] } })
  ∧ ∀ (words : List Word) (s : State), s.uplink.link = .down ∨ 8 ≤ s.uplink.refusals.length → exec (.packetReceived words) s = .next s

/-- A packet that meets no entry of Table 9-1 joins the tail of its domain's intake queue, or is refused QUEUE_FULL where that queue holds 8, and nothing else changes; the kind codes and step codes are those of Tables 9-5 and 9-3 (R160, R161). -/
def Obligations.GoodPacketJoinsIntakeQueue : Prop :=
  (List.range 14).map ReqKind.ofCode = [some .read, some .write, some .blockRead, some .blockWrite, some .fetchAdd, some .sync, some .claim, some .complete,
      some .threshold, some .message, some .clearService, some .ctlRead, some .ctlWrite, some .bayAction]
  ∧ (List.range 4).map Stride.ofCode = [.none, .increment, .hold, .decrement]
  ∧ ∀ (w0 w1 w2 : Word) (payload : List Word) (s : State), s.uplink.link = .up → s.uplink.refusals.length < 8 → ¬ Malformed w0 w1 w2 payload →
    ∃ (r : Request) (f : UplinkRefusal), r.Reads w0 w1 w2 payload ∧ f.Refuses w0 .queueFull
      ∧ exec (.packetReceived (w0 :: w1 :: w2 :: payload)) s =
          if s.uplink.intake[r.domain].length < 8 then
            .next { s with uplink := { s.uplink with intake := s.uplink.intake.set r.domain (s.uplink.intake[r.domain] ++ [r]) } }
          else .next { s with uplink := { s.uplink with refusals := s.uplink.refusals ++ [f] } }

/-- While the link is UP, a waiting notice goes first: that of the lowest domain, with the priority of its highest deliverable item or 0; its signal flag stays set. Without one the head refusal is taken, sent as a response with units done 0, no flag, result word 0 and no payload. While the link is DOWN, or when nothing waits, nothing is sent (R147, R157, R163, R164, Table 9-4). -/
def Obligations.TransmitterTakesNoticeThenRefusal : Prop :=
  (∀ s : State, s.uplink.link = .down ∨ ((∀ d : DomainId, s.events.delivery[d].notice = false) ∧ s.uplink.refusals = [] ∧ s.tracker.order = []) →
    exec .transmitChoice s = .next s)
  ∧ ∀ s : State, s.uplink.link = .up →
    (∀ d : DomainId, s.events.delivery[d].notice = true → (∀ d' < d, s.events.delivery[d'].notice = false) →
      ∃ w0 w1 : Word, w0.toNat = 15 * 2 ^ 28 + d * 2 ^ 25
        ∧ (∀ it, s.highest d = some it → w1.toNat = s.events.routes[it.source].priority) ∧ (s.highest d = none → w1 = 0)
        ∧ exec .transmitChoice s = .next ({ s with uplink := { s.uplink with outLink := some [w0, w1, 0] } }.mapDelivery d fun y => { y with notice := false }))
    ∧ ((∀ d : DomainId, s.events.delivery[d].notice = false) → ∀ r rs, s.uplink.refusals = r :: rs →
      exec .transmitChoice s = .next { s with uplink := { s.uplink with refusals := rs, outLink := some r.words } }
      ∧ r.words = [BitVec.ofNat 32 (14 * 2 ^ 28 + r.domain * 2 ^ 25 + r.tag.toNat * 2 ^ 17 + r.status.code * 2 ^ 2), 0, 0])

/-- Without a notice or a refusal the transmitter takes the head of the response order. A DONE entry is freed; a posted entry still at work stays where it is, without its response. The packet is the three header words of Table 9-4 and the payload, with the status codes of Table 9-5 (R43, R48, R60, R163, R164). -/
def Obligations.TransmitterTakesHeadResponse : Prop :=
  (∀ r : Response, r.words =
      BitVec.ofNat 32 (14 * 2 ^ 28 + r.domain * 2 ^ 25 + r.tag.toNat * 2 ^ 17 + r.payload.length * 2 ^ 7 + r.status.code * 2 ^ 2)
      :: BitVec.ofNat 32 (r.flags.carry.toNat * 2 ^ 16 + r.flags.spurious.toNat * 2 ^ 17 + r.flags.defect.toNat * 2 ^ 18 + r.flags.untracked.toNat * 2 ^ 19
          + r.flags.postedFault.toNat * 2 ^ 20 + r.unitsDone)
      :: r.result :: r.payload)
  ∧ [Status.ok, .malformed, .queueFull, .domainOff, .noAperture, .span, .wrongKind, .level, .writeProtect, .portDenied, .railOff, .bayNotReady, .range,
      .moduleNak, .timeout, .moduleGone, .bayReset, .bayFaulted, .noDescriptor, .nothingInService, .badRecord, .badState].map Status.code = List.range 22
  ∧ ∀ (s : State) (e : EntryId) (rest : List EntryId) (r : Response), s.uplink.link = .up → (∀ d : DomainId, s.events.delivery[d].notice = false) →
    s.uplink.refusals = [] → s.tracker.order = e :: rest → s.tracker.entries[e].response = some r →
    (s.tracker.entries[e].state = .done → ∃ u, exec .transmitChoice s = .next u
        ∧ u.uplink = { s.uplink with outLink := some r.words } ∧ u.tables = s.tables ∧ u.bays = s.bays ∧ u.events = s.events ∧ u.capture = s.capture
        ∧ u.tracker.entries[e].state = .free ∧ e ∉ u.tracker.taken
        ∧ (∃ later, u.tracker.order = rest.filter (· != e) ++ later)
        ∧ ∀ x : EntryId, x ≠ e → (s.tracker.entries[x].state = .waiting → s.tracker.entries[x].domain ≠ s.tracker.entries[e].domain) →
            (s.tracker.entries[x].state = .done → s.tracker.entries[x].posted = false → s.tracker.entries[x].response.isSome = true) →
            u.tracker.entries[x] = s.tracker.entries[x])
    ∧ (s.tracker.entries[e].state ≠ .done → exec .transmitChoice s =
        .next ({ s with uplink := { s.uplink with outLink := some r.words }, tracker := { s.tracker with order := rest } }.mapEntry e fun y => { y with response := none }))

/-! ### The admission arbiter and the checks -/

/-- The arbiter takes the head of the first non-empty intake queue after the last-served domain, modulo 8, into the lowest free entry; while no entry is free or every queue is empty it takes nothing; the domain served becomes the last served, which a power-on reset and a link reset set to 7 (R30). -/
def Obligations.ArbiterServesRoundRobin : Prop :=
  ∀ s : State,
    (∀ t, s.nextTaken = some t →
      (∃ rest, s.uplink.intake[t.domain] = t.request :: rest)
      ∧ (∀ d : DomainId, d - (s.tables.lastServed + 1) < t.domain - (s.tables.lastServed + 1) → s.uplink.intake[d] = [])
      ∧ s.tracker.entries[t.entry].state = .free ∧ (∀ e < t.entry, s.tracker.entries[e].state ≠ .free)
      ∧ ∀ c, commandServes c t.request = true → ∃ u, exec c s = .next u ∧ u.tables.lastServed = t.domain
          ∧ u.uplink = { s.uplink with intake := s.uplink.intake.set t.domain s.uplink.intake[t.domain].tail })
    ∧ (s.nextTaken = none ↔ (∀ e : EntryId, s.tracker.entries[e].state ≠ .free) ∨ ∀ d : DomainId, s.uplink.intake[d] = [])
    ∧ (∃ u, exec .powerOnReset s = .next u ∧ u.tables.lastServed = 7)
    ∧ (s.uplink.link = .up → ∃ u, exec .linkLost s = .next u ∧ u.tables.lastServed = 7)

/-- Every service of the arbiter but RESET, whatever its outcome, takes its request into its entry and leaves every other entry but the SYNCs that wait in its domain (R30, R32, R44, R56). A command that names a service the arbiter does not make, because no entry is free, no request waits or the request it would take is of another form, changes nothing: this clause is the model's choice (log 2). -/
def Obligations.ServiceTakesItsRequestAlone : Prop :=
  (∀ (c : Instr) (s : State) (t : Taken), s.nextTaken = some t → commandServes c t.request = true → c ≠ .reset →
    ∃ u, exec c s = .next u ∧ s.Served t u)
  ∧ ∀ (c : Instr) (s : State), (∃ r, commandServes c r = true) →
    (s.nextTaken = none ∨ ∃ t, s.nextTaken = some t ∧ commandServes c t.request = false) → exec c s = .next s

/-- A request that fails a check of Table 2-4 is answered with the status of the check and has no effect on any table, latch, bay or module: DOMAIN_OFF at step 1; LEVEL at step 2 for a CTL_WRITE or a BAY_ACTION of a domain not at level 0 and for a CTL_READ of a domain above level 1; and the first failing check of a data request (R26, R33). -/
def Obligations.RefusedRequestHasNoEffect : Prop :=
  ∀ (c : Instr) (s : State) (t : Taken) (st : Status), s.nextTaken = some t → commandServes c t.request = true →
    (st = .domainOff ∧ s.tables.domains[t.request.domain].enabled = false
      ∨ st = .level ∧ s.tables.domains[t.request.domain].enabled = true
          ∧ ((t.request.kind = .ctlWrite ∨ t.request.kind = .bayAction) ∧ s.tables.domains[t.request.domain].level ≠ 0
              ∨ t.request.kind = .ctlRead ∧ 1 < s.tables.domains[t.request.domain].level)
      ∨ (c = .read ∨ c = .write ∨ c = .blockRead ∨ c = .blockWrite ∨ c = .fetchAdd) ∧ s.checkData t.request = .refused st) →
    ∃ u, exec c s = .next u ∧ s.Served t u ∧ s.AnsweredWith t st {} 0 [] u
      ∧ s.TablesKept u ∧ u.bays = s.bays ∧ u.events = s.events ∧ u.capture = s.capture

/-- The lookup of a data request selects the lowest-numbered record that is valid, contains the request's first byte and shows to its domain (R6). -/
def Obligations.LookupFindsLowestMatch : Prop :=
  ∀ (table : Vector Aperture 32) (r : Request),
    let shows (i : Fin 32) : Prop := table[i].valid = true ∧ table[i].first.toNat ≤ r.word1.toNat ∧ r.word1.toNat ≤ table[i].last.toNat
      ∧ table[i].mask.getLsbD r.domain = true
    (∀ i, lookup table r = some i ↔ shows i ∧ ∀ j < i, ¬ shows j) ∧ (lookup table r = none ↔ ∀ i, ¬ shows i)

/-- The span of a data request (Table 1-3), in exact arithmetic; a request whose span does not lie inside its match is refused SPAN (R8). -/
def Obligations.SpanFollowsTable : Prop :=
  ∀ r : Request,
    let a : Int := r.word1.toNat
    let n : Int := r.count
    let z : Int := r.size
    let block : Prop := r.kind = .blockRead ∨ r.kind = .blockWrite
    (¬ block → spanLow r = a ∧ spanHigh r = a + z - 1)
    ∧ (block → r.stride = .increment → spanLow r = a ∧ spanHigh r = a + n * z - 1)
    ∧ (block → r.stride = .hold → spanLow r = a ∧ spanHigh r = a + z - 1)
    ∧ (block → r.stride = .decrement → spanLow r = a - (n - 1) * z ∧ spanHigh r = a + z - 1)
    ∧ ∀ (s : State) (i : Fin 32), s.tables.domains[r.domain].enabled = true → lookup s.tables.apertures r = some i →
        (((s.tables.apertures[i].first.toNat : Int) ≤ spanLow r ∧ spanHigh r ≤ s.tables.apertures[i].last.toNat) ↔
          s.checkData r ≠ .refused .span)

/-- The first check of Table 2-4 that fails gives a data request its status; one that passes every step is admitted through its match (R7, R33, R37). -/
def Obligations.FirstFailingCheckGivesStatus : Prop :=
  ∀ (s : State) (r : Request),
    (s.tables.domains[r.domain].enabled = false → s.checkData r = .refused .domainOff)
    ∧ (s.tables.domains[r.domain].enabled = true → lookup s.tables.apertures r = none → s.checkData r = .refused .noAperture)
    ∧ ∀ i : Fin 32, s.tables.domains[r.domain].enabled = true → lookup s.tables.apertures r = some i → s.tables.apertures[i].sound = true →
        let steps := s.AdmissionSteps r s.tables.apertures[i]
        ((∀ c ∈ steps, c.1) → s.checkData r = .admitted i)
        ∧ ∀ before c after, steps = before ++ c :: after → (∀ x ∈ before, x.1) → ¬ c.1 → s.checkData r = .refused c.2

/-- READ, WRITE, BLOCK_READ, BLOCK_WRITE and FETCH_ADD, admitted: the entry holds the request and its translation copy, is posted exactly for a WRITE through a posting match, and is HELD by the strict or the chain rule or else QUEUED at the tail of its bay's queue; a posted one has its OK response ready. An entry that enters an empty queue brings a decision point where the bus is free; in PARKED its arrival starts the wake, 5 µs after a LIGHT park and the deep wake time after a DEEP one, and a deep wake time of 0 takes the bay to ONLINE at once. Nothing else changes (R12, R32, R37, R47, R51, R82, R134, R135). -/
def Obligations.AdmittedDataRequestIsPlaced : Prop :=
  ∀ (c : Instr) (s : State) (t : Taken) (i : Fin 32), c = .read ∨ c = .write ∨ c = .blockRead ∨ c = .blockWrite ∨ c = .fetchAdd →
    s.nextTaken = some t → commandServes c t.request = true → s.checkData t.request = .admitted i → s.tracker.Listed →
    let r := t.request
    let a := s.tables.apertures[i]
    let posted : Bool := r.kind == .write && a.posting
    let held : Prop := (posted = false ∧ a.ordering = .strict ∧ s.tracker.postedSet r.domain ≠ []) ∨ s.tracker.holdList r.domain a.bay ≠ []
    ∃ u, exec c s = .next u ∧ s.Served t u
      ∧ (let e := u.tracker.entries[t.entry]
         e.xlat = some { bay := a.bay, aperture := i, addr := a.offset.toNat + (r.word1.toNat - a.first.toNat), width := a.width, kind := a.kind,
                         policy := a.policy, ordering := a.ordering, auxGated := a.auxGated }
         ∧ e.posted = posted ∧ e.size = r.size ∧ e.unitsDone = 0 ∧ e.stale = false ∧ e.discard = false ∧ e.oldValue = none ∧ e.carry = false
         ∧ (r.kind = .blockRead ∨ r.kind = .blockWrite → e.count = r.count ∧ e.stride = r.stride)
         ∧ (r.kind = .write ∨ r.kind = .blockWrite → e.buffer = r.payload)
         ∧ (r.kind = .fetchAdd → e.operand = BitVec.ofNat 64 (natOfBytes ((bytesOfWords r.payload).take r.size)))
         ∧ (held → e.state = .held) ∧ (¬ held → e.state = .queued)
         ∧ (posted = true → e.response = some { domain := r.domain, tag := r.tag, status := .ok, unitsDone := 0, flags := {}, result := 0, payload := [] }
              ∧ u.tracker.order = s.tracker.order ++ [t.entry])
         ∧ (posted = false → e.response = none ∧ u.tracker.order = s.tracker.order))
      ∧ (held → u.bays = s.bays)
      ∧ (¬ held → (∀ b, b ≠ a.bay → u.bays[b] = s.bays[b])
          ∧ (let y := s.bays[a.bay]
             let q := y.queue ++ [t.entry]
             (y.state ≠ .parked → y.queue = [] → y.BusFree → u.bays[a.bay] = { y with queue := q, due := true })
             ∧ (y.state ≠ .parked → y.queue ≠ [] ∨ ¬ y.BusFree → u.bays[a.bay] = { y with queue := q })
             ∧ (y.state = .parked → y.Sound →
                 (y.depth = some .light → u.bays[a.bay] = { y with queue := q, state := .waking, timer := some 5 })
                 ∧ ∀ id, y.identity = some id → y.depth = some .deep →
                     (idDeepWake id ≠ 0 → u.bays[a.bay] = { y with queue := q, state := .waking, timer := some (idDeepWake id) })
                     ∧ (idDeepWake id = 0 → u.bays[a.bay] = { y with queue := q, state := .online, depth := none, timeouts := 0, due := true }))))
      ∧ u.tracker.postedFault = s.tracker.postedFault
      ∧ s.TablesKept u ∧ u.events = s.events ∧ u.capture = s.capture

/-- SYNC: DONE at once with its domain's posted-fault flag, which is cleared, where every earlier entry of the domain is DONE; WAITING while an earlier entry of the domain is still at work; no table, bay, latch or capture record changes (R56, R57). -/
def Obligations.SyncWaitsForEarlierEntries : Prop :=
  ∀ (s : State) (t : Taken), s.nextTaken = some t → t.request.kind = .sync → s.tables.domains[t.request.domain].enabled = true → s.tracker.Listed →
    ∃ u, exec .sync s = .next u ∧ s.Served t u ∧ s.TablesKept u ∧ u.bays = s.bays ∧ u.events = s.events ∧ u.capture = s.capture
      ∧ ((∀ e ∈ s.tracker.admissionList t.request.domain, s.tracker.entries[e].state = .done) →
          u.tracker.entries[t.entry].state = .done ∧ u.tracker.postedFault[t.request.domain] = false
          ∧ u.tracker.entries[t.entry].response = some { domain := t.request.domain, tag := t.request.tag, status := .ok, unitsDone := 0
                                                         flags := { postedFault := s.tracker.postedFault[t.request.domain] }, result := 0, payload := [] })
      ∧ ((∃ e ∈ s.tracker.admissionList t.request.domain, s.tracker.entries[e].state ≠ .done ∧ s.tracker.entries[e].state ≠ .waiting) →
          u.tracker.entries[t.entry].state = .waiting ∧ u.tracker.entries[t.entry].response = none
          ∧ ∀ e ∈ s.tracker.admissionList t.request.domain, s.tracker.entries[e].state ≠ .done → s.tracker.entries[e].state ≠ .waiting →
              u.tracker.entries[e] = s.tracker.entries[e])

/-! ### The event unit -/

/-- An item is deliverable to a domain when the seven conditions hold; the highest deliverable item has the greatest priority, and among equals the lowest source number (R144). -/
def Obligations.HighestDeliverableItemIsChosen : Prop :=
  ∀ (s : State) (d : DomainId),
    (∀ it : Item, s.deliverable d it = true ↔
      s.events.isPending it = true
      ∧ (∀ n, it = .bay n → s.events.routes[it.source].destination = d) ∧ (∀ c e, it = .msg c e → e = d)
      ∧ s.events.routes[it.source].masked = false
      ∧ 1 ≤ s.events.routes[it.source].priority.val ∧ s.events.delivery[d].threshold < s.events.routes[it.source].priority
      ∧ (∀ top rest, s.events.delivery[d].inService = top :: rest → top.priority < s.events.routes[it.source].priority)
      ∧ s.events.isActive it = false
      ∧ s.tables.domains[d].enabled = true)
    ∧ (s.highest d = none ↔ ∀ it, s.deliverable d it = false)
    ∧ ∀ it, s.highest d = some it ↔ s.deliverable d it = true ∧ ∀ other, s.deliverable d other = true → other ≠ it →
        s.events.routes[other.source].priority < s.events.routes[it.source].priority
          ∨ s.events.routes[other.source].priority = s.events.routes[it.source].priority ∧ it.source < other.source

/-- A rise of kind `k` at bay `b` sets the latch of source 8 × b + k while the bay's sense enable for `k` is set, and its domain is re-examined; while the enable is off it has no effect; the kinds are numbered as in Table 7-3 (R131, R138, R145). -/
def Obligations.RiseIsLatchedWhileSensed : Prop :=
  [CondKind.presence, .online, .attention, .supplyWarn, .supplyFail, .bayFault, .postedFault, .pollOverrun].map CondKind.index = List.finRange 8
  ∧ ∀ (b : BayId) (k : CondKind) (s : State),
    (s.bays[b].policy.sense.getLsbD k.index = false → s.raise b k = s)
    ∧ (s.bays[b].policy.sense.getLsbD k.index = true → ∀ n : Fin 64, n.val = 8 * b.val + k.index.val →
        let u := s.raise b k
        u.events.isPending (.bay n) = true
        ∧ (∀ it, it ≠ .bay n → u.events.isPending it = s.events.isPending it) ∧ (∀ it, u.events.isActive it = s.events.isActive it)
        ∧ s.events.TablesKept u.events
        ∧ (∀ d, d = s.events.routes[(Item.bay n).source].destination → u.ReexaminedFrom d s.events.delivery[d])
        ∧ (∀ d, d ≠ s.events.routes[(Item.bay n).source].destination → u.events.delivery[d] = s.events.delivery[d])
        ∧ u.uplink = s.uplink ∧ u.tables = s.tables ∧ u.tracker = s.tracker ∧ u.bays = s.bays ∧ u.capture = s.capture ∧ u.pending = s.pending)

/-- CLAIM clears its domain's signal flag and withdraws a waiting notice. With no deliverable item it answers the spurious vector with the SPURIOUS flag. Otherwise the latch of the highest item is cleared, and its vector decides: not usable, DEFECT with the offer; TRACKED, an in-service entry on top of the list and the active mark; UNTRACKED, the flag alone. The domain is re-examined (R146, R148, R149, R150). -/
def Obligations.ClaimTakesHighestItem : Prop :=
  ∀ (s : State) (t : Taken), s.nextTaken = some t → t.request.kind = .claim → s.tables.domains[t.request.domain].enabled = true →
    let d := t.request.domain
    let y := s.events.delivery[d]
    (s.highest d = none → ∃ (u : State) (w : Word), exec .claim s = .next u ∧ s.Served t u ∧ w.toNat = s.tables.domains[d].spurious
      ∧ s.AnsweredWith t .ok { spurious := true } 0 [w, 0] u
      ∧ u.events = { s.events with delivery := s.events.delivery.set d { y with signal := false, notice := false } }
      ∧ s.TablesKept u ∧ u.bays = s.bays ∧ u.capture = s.capture)
    ∧ ∀ it, s.highest d = some it →
      let r := s.events.routes[it.source]
      let x := s.events.descriptors[r.vector]
      let usable : Prop := r.vector.val < s.events.limit ∧ x.present = true
      ∃ (u : State) (w : Word), exec .claim s = .next u ∧ s.Served t u
        ∧ w.toNat = r.vector.val + 2 ^ 8 * it.source.val + 2 ^ 16 * r.priority.val
        ∧ u.events.isPending it = false ∧ (∀ o, o ≠ it → u.events.isPending o = s.events.isPending o)
        ∧ s.events.TablesKept u.events ∧ (∀ e, e ≠ d → u.events.delivery[e] = s.events.delivery[e])
        ∧ (¬ usable → s.AnsweredWith t .ok { defect := true } 0 [w, 0] u
            ∧ (∀ o, u.events.isActive o = s.events.isActive o) ∧ u.ReexaminedFrom d { y with signal := false, notice := false }
            ∧ u.capture = (s.offer { kind := .descriptorMissing, who := some (d, t.request.tag), xlat := none
                                     bay := match it with
                                       | .bay n => some ⟨n.val / 8, by omega⟩
                                       | .msg _ _ => none }).capture)
        ∧ (usable → u.capture = s.capture)
        ∧ (usable → x.kind = .tracked → s.AnsweredWith t .ok {} 0 [w, x.handler] u
            ∧ u.events.isActive it = true ∧ (∀ o, o ≠ it → u.events.isActive o = s.events.isActive o)
            ∧ u.ReexaminedFrom d { y with signal := false, notice := false
                                          inService := { source := it.source, priority := r.priority, vector := r.vector } :: y.inService })
        ∧ (usable → x.kind = .untracked → s.AnsweredWith t .ok { untracked := true } 0 [w, x.handler] u
            ∧ (∀ o, u.events.isActive o = s.events.isActive o) ∧ u.ReexaminedFrom d { y with signal := false, notice := false })
        ∧ s.TablesKept u ∧ u.bays = s.bays

/-- COMPLETE of a domain removes the top entry of its list, clears the item's active mark and answers its vector and source, and re-examines the domain and the destination of a bay source's route as it stands; on an empty list it is refused NOTHING_IN_SERVICE and no state changes (R151). -/
def Obligations.CompleteEndsNewestService : Prop :=
  ∀ (s : State) (t : Taken), s.nextTaken = some t → t.request.kind = .complete → s.tables.domains[t.request.domain].enabled = true →
    let d := t.request.domain
    let y := s.events.delivery[d]
    (y.inService = [] → ∃ u, exec .complete s = .next u ∧ s.Served t u ∧ s.AnsweredWith t .nothingInService {} 0 [] u
      ∧ s.TablesKept u ∧ u.bays = s.bays ∧ u.events = s.events ∧ u.capture = s.capture)
    ∧ ∀ top rest, y.inService = top :: rest → ∃ (u : State) (w : Word), exec .complete s = .next u ∧ s.Served t u
        ∧ w.toNat = top.vector.val + 2 ^ 8 * top.source.val ∧ s.AnsweredWith t .ok {} w [] u
        ∧ u.events.isActive (itemOf d top.source) = false ∧ (∀ it, it ≠ itemOf d top.source → u.events.isActive it = s.events.isActive it)
        ∧ (∀ it, u.events.isPending it = s.events.isPending it) ∧ s.events.TablesKept u.events
        ∧ u.ReexaminedFrom d { y with inService := rest }
        ∧ (∀ e, e ≠ d → (top.source.val < 64 ∧ s.events.routes[top.source].destination = e → u.ReexaminedFrom e s.events.delivery[e])
            ∧ (¬ (top.source.val < 64 ∧ s.events.routes[top.source].destination = e) → u.events.delivery[e] = s.events.delivery[e]))
        ∧ s.TablesKept u ∧ u.bays = s.bays ∧ u.capture = s.capture

/-- CLEAR_SERVICE of a domain removes every entry of its list, clears their active marks, keeps the pending latches and answers the number removed, at most 15; the domain and the destinations of the bay sources removed are re-examined (R152). -/
def Obligations.ClearServiceEmptiesList : Prop :=
  ∀ (s : State) (t : Taken), s.nextTaken = some t → t.request.kind = .clearService → s.tables.domains[t.request.domain].enabled = true →
    let d := t.request.domain
    let y := s.events.delivery[d]
    let named (e : DomainId) : Prop := ∃ x ∈ y.inService, x.source.val < 64 ∧ s.events.routes[x.source].destination = e
    (s.events.Nested → y.inService.length ≤ 15)
    ∧ ∃ u, exec .clearService s = .next u ∧ s.Served t u ∧ s.AnsweredWith t .ok {} (BitVec.ofNat 32 y.inService.length) [] u
      ∧ (∀ x ∈ y.inService, u.events.isActive (itemOf d x.source) = false)
      ∧ (∀ it, (∀ x ∈ y.inService, itemOf d x.source ≠ it) → u.events.isActive it = s.events.isActive it)
      ∧ (∀ it, u.events.isPending it = s.events.isPending it) ∧ s.events.TablesKept u.events
      ∧ u.ReexaminedFrom d { y with inService := [] }
      ∧ (∀ e, e ≠ d → (named e → u.ReexaminedFrom e s.events.delivery[e]) ∧ (¬ named e → u.events.delivery[e] = s.events.delivery[e]))
      ∧ s.TablesKept u ∧ u.bays = s.bays ∧ u.capture = s.capture

/-- THRESHOLD of a domain sets its threshold to the value carried, which the receiver has found to be at most 15, answers the old one, and re-examines the domain (R153). -/
def Obligations.ThresholdIsReplaced : Prop :=
  ∀ (s : State) (t : Taken), s.nextTaken = some t → t.request.kind = .threshold → s.tables.domains[t.request.domain].enabled = true →
    t.request.aux.toNat ≤ 15 →
    let d := t.request.domain
    let y := s.events.delivery[d]
    ∃ (u : State) (new : Fin 16) (w : Word), exec .threshold s = .next u ∧ s.Served t u ∧ new.val = t.request.aux.toNat ∧ w.toNat = y.threshold
      ∧ s.AnsweredWith t .ok {} w [] u ∧ u.ReexaminedFrom d { y with threshold := new }
      ∧ (∀ e, e ≠ d → u.events.delivery[e] = s.events.delivery[e])
      ∧ (∀ it, u.events.isPending it = s.events.isPending it ∧ u.events.isActive it = s.events.isActive it) ∧ s.events.TablesKept u.events
      ∧ s.TablesKept u ∧ u.bays = s.bays ∧ u.capture = s.capture

/-- MESSAGE on channel c: NO_DESCRIPTOR where the vector of source 64 + c is not usable, else LEVEL where the domain's level is above the message level, without effect; else the latch (c, e) of every enabled domain e of the mask is set and e is re-examined, and the answer counts the latches that were clear (R139, R154). -/
def Obligations.MessageSetsEnabledLatches : Prop :=
  ∀ (s : State) (t : Taken) (c : Fin 4) (n : Fin 68), s.nextTaken = some t → t.request.kind = .message →
    s.tables.domains[t.request.domain].enabled = true → t.request.aux.toNat = c.val → n.val = 64 + c.val →
    let v := s.events.routes[n].vector
    let x := s.events.descriptors[v]
    let level := s.tables.domains[t.request.domain].level
    let reached (e : DomainId) : Bool := t.request.mask.getLsbD e && s.tables.domains[e].enabled
    (¬ (v.val < s.events.limit ∧ x.present = true) → ∃ u, exec .message s = .next u ∧ s.Served t u ∧ s.AnsweredWith t .noDescriptor {} 0 [] u
        ∧ s.TablesKept u ∧ u.bays = s.bays ∧ u.events = s.events ∧ u.capture = s.capture)
    ∧ (v.val < s.events.limit → x.present = true → x.messageLevel < level → ∃ u, exec .message s = .next u ∧ s.Served t u
        ∧ s.AnsweredWith t .level {} 0 [] u ∧ s.TablesKept u ∧ u.bays = s.bays ∧ u.events = s.events ∧ u.capture = s.capture)
    ∧ (v.val < s.events.limit → x.present = true → level ≤ x.messageLevel → ∃ (u : State) (w : Word), exec .message s = .next u ∧ s.Served t u
        ∧ w.toNat = ((List.finRange 8).filter fun e => reached e && !s.events.isPending (.msg c e)).length
        ∧ s.AnsweredWith t .ok {} w [] u
        ∧ (∀ it, u.events.isPending it = true ↔ s.events.isPending it = true ∨ ∃ e, reached e = true ∧ it = .msg c e)
        ∧ (∀ it, u.events.isActive it = s.events.isActive it) ∧ s.events.TablesKept u.events
        ∧ (∀ e, (reached e = true → u.ReexaminedFrom e s.events.delivery[e]) ∧ (reached e = false → u.events.delivery[e] = s.events.delivery[e]))
        ∧ s.TablesKept u ∧ u.bays = s.bays ∧ u.capture = s.capture)

/-! ### The control space -/

/-- CTL_READ of a record of Table 10-1, from an enabled domain at level 0 or 1, answers the whole record as it stands at the admission, and changes no table, bay, latch, list or capture record (R5, R166, R167, R168). The records that may be written are laid out as in Tables 9-8, 9-9 and 10-2 (R5, R28); the layouts of the others are stated below. -/
def Obligations.CtlReadReturnsRecord : Prop :=
  ∀ (s : State) (t : Taken), s.nextTaken = some t → t.request.kind = .ctlRead → s.tables.domains[t.request.domain].enabled = true →
    s.tables.domains[t.request.domain].level.val ≤ 1 → t.request.NamesRecord →
    let record := (s.takeRequest t).readRecord t.request.group t.request.index
    let names (g i : Nat) : Prop := t.request.group = g ∧ t.request.index = i
    (∃ row ∈ recordGroups, row.1 = t.request.group ∧ record.length = row.2.2.2)
    ∧ (∀ i : Fin 32, names 1 i → let a := s.tables.apertures[i]
        record = [a.first, a.last, a.offset,
          BitVec.ofNat 32 (a.valid.toNat + (if a.kind = .port then 2 else 0) + 2 ^ 2 * a.bay
            + 2 ^ 5 * (match a.width with | .w8 => 0 | .w16 => 1 | .w32 => 2) + (if a.policy = .close then 2 ^ 7 else 0) + 2 ^ 8 * a.posting.toNat
            + (if a.ordering = .relaxed then 2 ^ 9 else 0) + 2 ^ 10 * a.writeProtect.toNat + 2 ^ 11 * a.auxGated.toNat + 2 ^ 12 * a.level
            + 2 ^ 16 * a.mask.toNat)])
    ∧ (∀ i : DomainId, names 2 i → let x := s.tables.domains[i]
        record = [BitVec.ofNat 32 (x.enabled.toNat + 2 ^ 4 * x.level + 2 ^ 8 * x.spurious)])
    ∧ (∀ i : Fin 64, names 3 i → record = s.tables.grants[i].toList)
    ∧ (∀ i : Fin 68, names 4 i → let x := s.events.routes[i]
        record = [BitVec.ofNat 32 (x.masked.toNat + 2 ^ 4 * x.priority + 2 ^ 8 * x.vector + 2 ^ 16 * x.destination)])
    ∧ (∀ i : Fin 256, names 5 i → let x := s.events.descriptors[i]
        record = [BitVec.ofNat 32 (x.present.toNat + (if x.kind = .untracked then 2 else 0) + 2 ^ 4 * x.messageLevel), x.handler])
    ∧ (names 6 0 → record = [BitVec.ofNat 32 s.events.limit])
    ∧ (∀ i : BayId, names 7 i → let x := s.bays[i].policy
        record = [BitVec.ofNat 32 ((if x.power = .auto then 1 else 0) + 2 * s.tables.freeLevels[i] + 2 ^ 4 * x.readyTimeout + 2 ^ 16 * x.exchangeTimeout),
          BitVec.ofNat 32 (x.pollOverride + 2 ^ 16 * x.sense.toNat)])
    ∧ ∃ u, exec .ctlRead s = .next u ∧ s.Served t u ∧ s.AnsweredWith t .ok {} 0 record u
      ∧ s.TablesKept u ∧ u.bays = s.bays ∧ u.events = s.events ∧ u.capture = s.capture

/-- The DEVICE_ID record holds part code 0x0408, revision 1, and the counts 32, 8, 8 and 32, in every state (R169). -/
def Obligations.DeviceIdIsFixed : Prop :=
  ∀ (s : State) (t : Taken), s.nextTaken = some t → t.request.kind = .ctlRead → s.tables.domains[t.request.domain].enabled = true →
    s.tables.domains[t.request.domain].level.val ≤ 1 → t.request.group = 14 → t.request.index = 0 →
    ∃ (u : State) (w0 w1 : Word), exec .ctlRead s = .next u ∧ s.AnsweredWith t .ok {} 0 [w0, w1] u
      ∧ bits w0 0 16 = 0x0408 ∧ bits w0 16 8 = 1 ∧ bits w0 24 8 = 0
      ∧ bits w1 0 8 = 32 ∧ bits w1 8 8 = 8 ∧ bits w1 16 8 = 8 ∧ bits w1 24 8 = 32

/-- The words of the read-only records of a bay, a domain, the event unit and the capture, with the codes of their fields (Tables 10-3, 10-4, 10-5, 10-6; R123, R156, R168, R170).
That the page field of a lane word is 0 where the lane has no page is the model's choice (log 36). -/
def Obligations.ReadOnlyRecordsAreLaidOut : Prop :=
  [BayState.empty, .seating, .unpowered, .powering, .held, .starting, .identifying, .online, .parking, .parked, .waking, .draining,
      .faulted].map BayState.code = List.range 13
  ∧ [FaultCause.none, .railTimeout, .readyTimeout, .idNoAnswer, .identityBad, .exchangeTimeouts, .moduleNotReady].map FaultCause.code = List.range 7
  ∧ [LaneState.closed, .opening, .opened, .closing].map LaneState.code = List.range 4
  ∧ [OfferKind.moduleNak, .timeout, .railOff, .moduleGone, .bayReset, .bayFaulted, .bayNotReady, .pollFailed, .descriptorMissing, .runtPacket, .railTimeout,
      .readyTimeout, .idNoAnswer, .identityBad, .exchangeTimeouts, .moduleNotReady].map OfferKind.code = (List.range 16).map (· + 1)
  ∧ ∀ s : State,
    (∀ b : BayId, let x := s.bays[b]
      ∃ w0 w1 l0 l1 l2 l3 : Word, s.readRecord 8 b = [w0, w1, l0, l1, l2, l3]
        ∧ w0 = BitVec.ofNat 32 (x.state.code + 2 ^ 4 * (if x.depth = some .deep then 1 else 0) + 2 ^ 5 * x.cause.code + 2 ^ 8 * x.mainRail.toNat
            + 2 ^ 9 * x.auxRail.toNat + 2 ^ 10 * x.auxWanted.toNat + 2 ^ 11 * x.drainRequested.toNat + 2 ^ 12 * x.owed + 2 ^ 16 * x.timeouts
            + 2 ^ 18 * x.queue.length)
        ∧ w1 = BitVec.ofNat 32 (x.lastStatus.ready.toNat + 2 * x.lastStatus.attention.toNat + 4 * x.lastStatus.supplyWarn.toNat
            + 8 * x.lastStatus.supplyFail.toNat + 2 ^ 8 * x.lastStatus.code.toNat)
        ∧ ∀ (l : LaneId), let ln := x.lanes[l]
            [l0, l1, l2, l3][l.val]? = some (BitVec.ofNat 32 (ln.state.code + 2 ^ 2 * ln.dwellExpired.toNat + 2 ^ 3 * ln.releasePending.toNat
              + 2 ^ 4 * ln.pinned.toNat + 2 ^ 5 * ln.page.isSome.toNat + 2 ^ 16 * ln.page.getD 0)))
    ∧ (∀ b : BayId, (s.bays[b].identity = none → s.readRecord 9 b = List.replicate 9 0)
        ∧ ∀ r, s.bays[b].identity = some r → ∃ ws, s.readRecord 9 b = 1 :: ws ∧ ws.length = 8
            ∧ ∀ (j : Fin 32) (w : Word), ws[j.val / 4]? = some w → wordByte w (j.val % 4) = r[j])
    ∧ (∀ d : DomainId, s.readRecord 10 d = [BitVec.ofNat 32 (s.uplink.intake[d].length
        + 2 ^ 8 * (s.tracker.taken.filter fun e => s.tracker.entries[e].domain == d && s.tracker.entries[e].state == .held).length
        + 2 ^ 16 * (s.tracker.postedSet d).length + 2 ^ 24 * s.tracker.postedFault[d].toNat)])
    ∧ (∀ d : DomainId, let y := s.events.delivery[d]
        ∃ ws, s.readRecord 11 d = BitVec.ofNat 32 (y.threshold.val + 2 ^ 8 * y.signal.toNat + 2 ^ 16 * y.inService.length) :: ws ∧ ws.length = 15
          ∧ ∀ j : Fin 15, ws[j.val]? = some (match y.inService.reverse[j.val]? with
              | some x => BitVec.ofNat 32 (x.vector.val + 2 ^ 8 * x.source.val + 2 ^ 16 * x.priority.val)
              | none => 0))
    ∧ (∃ w0 w1 w2 w3 : Word, s.readRecord 12 0 = [w0, w1, w2, w3]
        ∧ (∀ n : Fin 64, (if n.val < 32 then w0 else w1).getLsbD (n.val % 32) = s.events.bayPending[n])
        ∧ (∀ c : Fin 4, w2.getLsbD c = true ↔ ∃ e, s.events.isPending (.msg c e) = true) ∧ w2.toNat < 16
        ∧ ∀ (c : Fin 4) (e : DomainId), w3.getLsbD (8 * c.val + e.val) = s.events.isPending (.msg c e))
    ∧ (s.capture = none → s.readRecord 13 0 = [0, 0, 0])
    ∧ ∀ c, s.capture = some c → s.readRecord 13 0 =
        [BitVec.ofNat 32 (1 + 2 * c.offer.kind.code
          + (match c.offer.who with | some w => 2 ^ 6 + 2 ^ 7 * w.1.val | none => 0)
          + (match c.offer.bay with | some b => 2 ^ 10 + 2 ^ 11 * b.val | none => 0)
          + (match c.offer.xlat with | some _ => 2 ^ 14 | none => 0) + 2 ^ 16 * c.more),
         BitVec.ofNat 32 ((match c.offer.who with | some w => w.2.toNat | none => 0) + (match c.offer.xlat with | some x => 2 ^ 8 * x.1.val | none => 0)),
         BitVec.ofNat 32 (match c.offer.xlat with | some x => x.2 | none => 0)]

/-- A record that a CTL_WRITE may put in place, laid out in its words and read from them again, is the same record, with every field at every value it can hold (Tables 9-8, 9-9, 10-2; R28). -/
def Obligations.WrittenRecordsReadBack : Prop :=
  (∀ a : Aperture, a.valid = true → a.sound = true → apertureOfWords a.words = some a)
    ∧ apertureOfWords Aperture.cleared.words = some Aperture.cleared ∧ Aperture.cleared.words = [0, 0, 0, 0]
    ∧ (∀ x : DomainRec, domainOfWords x.words = some x)
    ∧ (∀ x : Vector Word 8, grantOfWords x.toList = some x)
    ∧ (∀ x : Route, routeOfWords x.words = some x)
    ∧ (∀ x : Descriptor, descriptorOfWords x.words = some x)
    ∧ (∀ n : Nat, n ≤ 256 → limitOfWords [BitVec.ofNat 32 n] = some n)
    ∧ ∀ (p : BayPolicy) (free : Level), 1 ≤ p.readyTimeout → p.readyTimeout ≤ 1000 → 1 ≤ p.exchangeTimeout → p.exchangeTimeout ≤ 255 →
        p.pollOverride < 2 ^ 16 → policyOfWords (p.words free) = some (p, free)

/-- A CTL_READ that names no record of Table 10-1, a CTL_WRITE that names none that may be written or carries a payload of another length, and a BAY_ACTION whose selector names no action, each past steps 1 and 2, is refused BAD_RECORD without effect (R39, R166). -/
def Obligations.RequestThatNamesNothingIsBadRecord : Prop :=
  ∀ (c : Instr) (s : State) (t : Taken), s.nextTaken = some t → commandServes c t.request = true →
    s.tables.domains[t.request.domain].enabled = true →
    (t.request.kind = .ctlRead ∧ s.tables.domains[t.request.domain].level.val ≤ 1 ∧ ¬ t.request.NamesRecord
      ∨ t.request.kind = .ctlWrite ∧ s.tables.domains[t.request.domain].level = 0 ∧ ¬ t.request.CarriesRecord
      ∨ t.request.kind = .bayAction ∧ s.tables.domains[t.request.domain].level = 0 ∧ (t.request.action = 0 ∨ 10 < t.request.action)) →
    ∃ u, exec c s = .next u ∧ s.Served t u ∧ s.AnsweredWith t .badRecord {} 0 [] u
      ∧ s.TablesKept u ∧ u.bays = s.bays ∧ u.events = s.events ∧ u.capture = s.capture

/-- CTL_WRITE of group APERTURE: a record written as not valid clears record i; a valid one that meets every condition of Table 1-2 replaces it whole; and a valid one that fails any of them is refused BAD_RECORD, the table left as it was (R3, R4). -/
def Obligations.ApertureWriteReplacesRecord : Prop :=
  ∀ (s : State) (t : Taken) (i : Fin 32) (w0 w1 w2 w3 : Word), s.TakesWrite t 1 i → t.request.payload = [w0, w1, w2, w3] →
    (bits w3 0 1 = 0 → ∃ u, exec .ctlWriteAperture s = .next u
      ∧ s.WriteAnswered t .ok { s.tables with apertures := s.tables.apertures.set i Aperture.cleared } s.bays s.events u)
    ∧ (bits w3 0 1 = 1 → apertureFits w0 w1 w2 w3 → ∃ (u : State) (a : Aperture), exec .ctlWriteAperture s = .next u ∧ a.Reads w0 w1 w2 w3
        ∧ s.WriteAnswered t .ok { s.tables with apertures := s.tables.apertures.set i a } s.bays s.events u)
    ∧ (bits w3 0 1 = 1 → ¬ apertureFits w0 w1 w2 w3 → ∃ u, exec .ctlWriteAperture s = .next u
        ∧ s.WriteAnswered t .badRecord s.tables s.bays s.events u)

/-- CTL_WRITE of groups GRANT, DESCRIPTOR and DESC_LIMIT: the record replaces the one named, whole, and is answered OK; a limit above 256 is refused BAD_RECORD (R28, R141). -/
def Obligations.GrantAndDescriptorWritesReplaceRecords : Prop :=
  ∀ (s : State) (t : Taken),
    (∀ (i : Fin 64) (g : Vector Word 8), s.TakesWrite t 3 i → t.request.payload = g.toList → ∃ u, exec .ctlWriteGrant s = .next u
      ∧ s.WriteAnswered t .ok { s.tables with grants := s.tables.grants.set i g } s.bays s.events u)
    ∧ (∀ (i : Fin 256) (w0 w1 : Word), s.TakesWrite t 5 i → t.request.payload = [w0, w1] → ∃ (u : State) (x : Descriptor), exec .ctlWriteDescriptor s = .next u
        ∧ (x.present = true ↔ bits w0 0 1 = 1) ∧ (x.kind = .untracked ↔ bits w0 1 1 = 1) ∧ x.messageLevel.val = bits w0 4 2 ∧ x.handler = w1
        ∧ s.WriteAnswered t .ok s.tables s.bays { s.events with descriptors := s.events.descriptors.set i x } u)
    ∧ ∀ w : Word, s.TakesWrite t 6 0 → t.request.payload = [w] →
        (w.toNat ≤ 256 → ∃ u, exec .ctlWriteDescLimit s = .next u ∧ s.WriteAnswered t .ok s.tables s.bays { s.events with limit := w.toNat } u)
        ∧ (256 < w.toNat → ∃ u, exec .ctlWriteDescLimit s = .next u ∧ s.WriteAnswered t .badRecord s.tables s.bays s.events u)

/-- CTL_WRITE of groups DOMAIN and ROUTE: the record replaces the one named, whole, and is answered OK. A change of a domain's enabled field re-examines it. A route of a bay source re-examines its destinations before and after, and one of a message channel every domain (R25, R140, R145). -/
def Obligations.DomainAndRouteWritesReplaceRecords : Prop :=
  ∀ (s : State) (t : Taken) (w : Word), t.request.payload = [w] →
    (∀ i : DomainId, s.TakesWrite t 2 i → ∃ (u : State) (x : DomainRec), exec .ctlWriteDomain s = .next u ∧ s.Served t u ∧ s.AnsweredWith t .ok {} 0 [] u
      ∧ (x.enabled = true ↔ bits w 0 1 = 1) ∧ x.level.val = bits w 4 2 ∧ x.spurious.val = bits w 8 8
      ∧ u.tables = { s.tables with domains := s.tables.domains.set i x, lastServed := t.domain } ∧ u.bays = s.bays ∧ u.capture = s.capture
      ∧ (x.enabled = s.tables.domains[i].enabled → u.events = s.events)
      ∧ (x.enabled ≠ s.tables.domains[i].enabled → u.ReexaminedFrom i s.events.delivery[i])
      ∧ { u.events with delivery := s.events.delivery } = s.events ∧ ∀ e, e ≠ i → u.events.delivery[e] = s.events.delivery[e])
    ∧ ∀ i : Fin 68, s.TakesWrite t 4 i → ∃ (u : State) (x : Route), exec .ctlWriteRoute s = .next u ∧ s.Served t u ∧ s.AnsweredWith t .ok {} 0 [] u
      ∧ (x.masked = true ↔ bits w 0 1 = 1) ∧ x.priority.val = bits w 4 4 ∧ x.vector.val = bits w 8 8 ∧ x.destination.val = bits w 16 3
      ∧ { u.events with delivery := s.events.delivery } = { s.events with routes := s.events.routes.set i x }
      ∧ (∀ e, (64 ≤ i.val ∨ s.events.routes[i].destination = e ∨ x.destination = e → u.ReexaminedFrom e s.events.delivery[e])
          ∧ (¬ (64 ≤ i.val ∨ s.events.routes[i].destination = e ∨ x.destination = e) → u.events.delivery[e] = s.events.delivery[e]))
      ∧ s.TablesKept u ∧ u.bays = s.bays ∧ u.capture = s.capture

/-- CTL_WRITE of group BAY_POLICY: a record whose timeouts are in range replaces the bay's policy and its free level, whole, and withdraws the pending latch of every source of the bay whose enable it clears; a ready timeout of 0 or above 1000 or an exchange timeout of 0 is refused BAD_RECORD (R27, R122, R131). -/
def Obligations.BayPolicyWriteReplacesRecord : Prop :=
  ∀ (s : State) (t : Taken) (b : BayId) (w0 w1 : Word), s.TakesWrite t 7 b → t.request.payload = [w0, w1] →
    (1 ≤ bits w0 4 10 → bits w0 4 10 ≤ 1000 → 1 ≤ bits w0 16 8 → ∃ (u : State) (p : BayPolicy) (free : Level), exec .ctlWriteBayPolicy s = .next u
      ∧ s.Served t u ∧ s.AnsweredWith t .ok {} 0 [] u
      ∧ (p.power = .auto ↔ bits w0 0 1 = 1) ∧ free.val = bits w0 1 2 ∧ p.readyTimeout = bits w0 4 10 ∧ p.exchangeTimeout = bits w0 16 8
      ∧ p.pollOverride = bits w1 0 16 ∧ p.sense.toNat = bits w1 16 8
      ∧ u.bays = s.bays.set b { s.bays[b] with policy := p }
      ∧ u.tables = { s.tables with freeLevels := s.tables.freeLevels.set b free, lastServed := t.domain } ∧ u.capture = s.capture
      ∧ (∀ it, u.events.isActive it = s.events.isActive it) ∧ s.events.TablesKept u.events
      ∧ (∀ d : DomainId, u.events.delivery[d].threshold = s.events.delivery[d].threshold ∧ u.events.delivery[d].inService = s.events.delivery[d].inService)
      ∧ (s.Signalled → u.events.delivery = s.events.delivery)
      ∧ (∀ (k : Fin 8) (n : Fin 64), n.val = 8 * b.val + k.val →
          (s.bays[b].policy.sense.getLsbD k = true → p.sense.getLsbD k = false → u.events.isPending (.bay n) = false)
          ∧ ((s.bays[b].policy.sense.getLsbD k = false ∨ p.sense.getLsbD k = true) → u.events.isPending (.bay n) = s.events.isPending (.bay n)))
      ∧ (∀ n : Fin 64, n.val / 8 ≠ b.val → u.events.isPending (.bay n) = s.events.isPending (.bay n))
      ∧ ∀ c e, u.events.isPending (.msg c e) = s.events.isPending (.msg c e))
    ∧ (bits w0 4 10 = 0 ∨ 1000 < bits w0 4 10 ∨ bits w0 16 8 = 0 → ∃ u, exec .ctlWriteBayPolicy s = .next u
        ∧ s.WriteAnswered t .badRecord s.tables s.bays s.events u)

/-! ### Bay actions -/

/-- POWER_ON by bay state: UNPOWERED goes to POWERING with its rails on and the rail timer started, or on to HELD where rail-good is already reported; from POWERING to ONLINE, and in a park or wake with no drain requested, no change; and in every other case BAD_STATE (R106, R114). -/
def Obligations.PowerOnActsByState : Prop :=
  ∀ (s : State) (t : Taken), s.TakesAction t 1 → s.BaysSound →
    let b := s.bays[t.request.actionBay]
    (b.state = .unpowered → ∃ u, exec .powerOn s = .next u ∧ s.ActionAnswered t .ok
        { b with state := if b.railGood then .held else .powering, mainRail := true, auxRail := b.auxWanted
                 timer := some (if b.railGood then 10000 else 50000) } u)
    ∧ (b.state = .powering ∨ b.state = .held ∨ b.state = .starting ∨ b.state = .identifying ∨ b.state = .online
        ∨ (b.state = .parking ∨ b.state = .parked ∨ b.state = .waking) ∧ b.drainRequested = false →
      ∃ u, exec .powerOn s = .next u ∧ s.ActionAnswered t .ok b u)
    ∧ (b.state = .draining ∨ b.state = .empty ∨ b.state = .seating ∨ b.state = .faulted
        ∨ (b.state = .parking ∨ b.state = .parked ∨ b.state = .waking) ∧ b.drainRequested = true →
      ∃ u, exec .powerOn s = .next u ∧ s.ActionAnswered t .badState b u)

/-- POWER_OFF by bay state: a bring-up is cut short to UNPOWERED with the rails off at once; ONLINE drains, with the release-all at once where its queue is empty, and ends in UNPOWERED at once where every lane is CLOSED and no exchange is in progress; PARKING and WAKING go on with drain-requested set; PARKED starts its wake; FAULTED goes to UNPOWERED with its cause cleared; otherwise no change. Entering DRAINING brings a decision point where the bus is free, and an identity read that is cut short ends with its closing mark (R80, R82, R113, R115, R116, R117, R134).
That switching the main rail off ends the rail-good that was reported is the model's inference (log 8). -/
def Obligations.PowerOffActsByState : Prop :=
  ∀ (s : State) (t : Taken), s.TakesAction t 2 → s.BaysSound →
    let b := s.bays[t.request.actionBay]
    let answered (x : Bay) : Prop := ∃ u, exec .powerOff s = .next u ∧ s.ActionAnswered t .ok x u
    (b.state = .powering ∨ b.state = .held ∨ b.state = .starting ∨ b.state = .identifying →
      answered { b with state := .unpowered, mainRail := false, auxRail := false, moduleReset := true, railGood := false, timer := none, idLine := b.lineLeft })
    ∧ (b.state = .online → b.queue ≠ [] → answered { b with state := .draining }.callArbiter)
    ∧ (b.state = .online → b.queue = [] → ¬ b.AllClosed → ∃ lanes : Vector Lane 4, b.LanesReleased lanes
        ∧ answered { b with state := .draining, lanes := lanes }.callArbiter)
    ∧ (b.state = .online → b.queue = [] → b.AllClosed →
      answered { b with state := .unpowered, mainRail := false, auxRail := false, moduleReset := true, railGood := false
                        identity := none, pollTimer := none, owed := 0, forced := false, due := false })
    ∧ (b.state = .parking ∨ b.state = .waking → answered { b with drainRequested := true })
    ∧ (b.state = .parked → ∀ n, (b.depth = some .light → n = 5) → (b.depth = some .deep → ∀ id, b.identity = some id → n = idDeepWake id) →
        (n ≠ 0 → answered { b with state := .waking, drainRequested := true, timer := some n })
        ∧ (n = 0 → ¬ b.AllClosed → ∃ lanes : Vector Lane 4, b.LanesReleased lanes
            ∧ answered { b with state := .draining, depth := none, timeouts := 0, due := true, lanes := lanes })
        ∧ (n = 0 → b.AllClosed →
            answered { b with state := .unpowered, depth := none, timeouts := 0, mainRail := false, auxRail := false, moduleReset := true, railGood := false
                              identity := none, pollTimer := none, owed := 0 }))
    ∧ (b.state = .draining ∨ b.state = .unpowered ∨ b.state = .empty ∨ b.state = .seating → answered b)
    ∧ (b.state = .faulted → answered { b with state := .unpowered, cause := .none })

/-- AUX_ON and AUX_OFF are accepted in every bay state; AUX_ON sets aux-wanted and switches the aux rail on if the main rail is on, AUX_OFF clears aux-wanted and switches the aux rail off (R107). -/
def Obligations.AuxActionsSwitchAuxRail : Prop :=
  ∀ (s : State) (t : Taken),
    let b := s.bays[t.request.actionBay]
    (s.TakesAction t 3 → ∃ u, exec .auxOn s = .next u ∧ s.ActionAnswered t .ok { b with auxWanted := true, auxRail := b.mainRail } u)
    ∧ (s.TakesAction t 4 → ∃ u, exec .auxOff s = .next u ∧ s.ActionAnswered t .ok { b with auxWanted := false, auxRail := false } u)

/-- RETRY is accepted in FAULTED: the cause is cleared and the bay enters POWERING with its rails on and the rail timer started, where it waits for rail-good, since FAULTED has ended every earlier report; in every other state it is refused BAD_STATE (R106, R120). -/
def Obligations.RetryPowersFaultedBay : Prop :=
  ∀ (s : State) (t : Taken), s.TakesAction t 6 → s.BaysSound →
    let b := s.bays[t.request.actionBay]
    (b.state = .faulted → ∃ u, exec .retry s = .next u ∧ s.ActionAnswered t .ok
        { b with state := .powering, cause := .none, mainRail := true, auxRail := b.auxWanted, timer := some 50000 } u)
    ∧ (b.state ≠ .faulted → ∃ u, exec .retry s = .next u ∧ s.ActionAnswered t .badState b u)

/-- PARK_LIGHT and PARK_DEEP are accepted on an idle ONLINE bay and refused BAD_STATE on any other. The bay enters PARKING with its depth, a DEEP park with the release-all; it is PARKED in the same event where the park is over at once, and WAKING where 8 polls are then owed. Entering PARKING, or ONLINE after a wake of 0, brings a decision point where the bus is free (R80, R82, R132, R133, R134, R135). -/
def Obligations.ParkActsOnIdleBay : Prop :=
  ∀ (s : State) (t : Taken), s.BaysSound →
    let b := s.bays[t.request.actionBay]
    let light (x : Bay) : Prop := ∃ u, exec .parkLight s = .next u ∧ s.ActionAnswered t .ok x u
    let deep (x : Bay) : Prop := ∃ u, exec .parkDeep s = .next u ∧ s.ActionAnswered t .ok x u
    (s.TakesAction t 7 →
      (¬ (b.state = .online ∧ b.queue = []) → ∃ u, exec .parkLight s = .next u ∧ s.ActionAnswered t .badState b u)
      ∧ (b.state = .online → b.queue = [] →
          (¬ b.LightParkOver → light { b with state := .parking, depth := some .light }.callArbiter)
          ∧ (b.LightParkOver → b.owed ≠ 8 → light { b with state := .parked, depth := some .light, forced := false, due := false })
          ∧ (b.LightParkOver → b.owed = 8 → light { b with state := .waking, depth := some .light, forced := false, due := false, timer := some 5 })))
    ∧ (s.TakesAction t 8 →
      (¬ (b.state = .online ∧ b.queue = []) → ∃ u, exec .parkDeep s = .next u ∧ s.ActionAnswered t .badState b u)
      ∧ (b.state = .online → b.queue = [] →
          (¬ b.AllClosed → ∃ lanes : Vector Lane 4, b.LanesReleased lanes
            ∧ deep { b with state := .parking, depth := some .deep, lanes := lanes }.callArbiter)
          ∧ (b.AllClosed → b.owed ≠ 8 → deep { b with state := .parked, depth := some .deep, forced := false, due := false })
          ∧ (b.AllClosed → b.owed = 8 → ∀ id, b.identity = some id → idDeepWake id ≠ 0 →
              deep { b with state := .waking, depth := some .deep, forced := false, due := false, timer := some (idDeepWake id) })
          ∧ (b.AllClosed → b.owed = 8 → ∀ id, b.identity = some id → idDeepWake id = 0 →
              deep { b with timeouts := 0, forced := false, due := false }.callArbiter)))

/-- WAKE of a PARKED bay starts its wake, 5 µs after a LIGHT park and the deep wake time after a DEEP one, where 0 ends the wake at once, with a decision point due; in ONLINE and WAKING it changes nothing; in every other state it is refused BAD_STATE (R82, R134, R135, R136). -/
def Obligations.WakeActsByState : Prop :=
  ∀ (s : State) (t : Taken), s.TakesAction t 9 → s.BaysSound →
    let b := s.bays[t.request.actionBay]
    let answered (st : Status) (x : Bay) : Prop := ∃ u, exec .wake s = .next u ∧ s.ActionAnswered t st x u
    (b.state = .parked → b.depth = some .light → answered .ok { b with state := .waking, timer := some 5 })
    ∧ (b.state = .parked → b.depth = some .deep → ∀ id, b.identity = some id →
        (idDeepWake id ≠ 0 → answered .ok { b with state := .waking, timer := some (idDeepWake id) })
        ∧ (idDeepWake id = 0 → answered .ok { b with state := .online, depth := none, timeouts := 0, due := true }))
    ∧ (b.state = .online ∨ b.state = .waking → answered .ok b)
    ∧ (b.state ≠ .parked → b.state ≠ .online → b.state ≠ .waking → answered .badState b)

/-- RESET is accepted in HELD, STARTING, IDENTIFYING, ONLINE, PARKING, PARKED and WAKING, where it is the bay reset of the bay followed by the OK answer, and refused BAD_STATE in every other state, the bay left as it was; an identity read that is cut short ends with its closing mark (R113, R118).
Where the queue does not hold its entries in the order taken, the places of the other responses among theirs, but for a SYNC's after those of its domain (log 11), a flag that a SYNC takes between two failures (log 32) and the order of several offers (log 31) are the model's choices. -/
def Obligations.ResetActsByState : Prop :=
  ∀ (s : State) (t : Taken), s.TakesAction t 5 →
    let b := s.bays[t.request.actionBay]
    let accepted : Prop := b.state = .held ∨ b.state = .starting ∨ b.state = .identifying ∨ b.state = .online ∨ b.state = .parking
      ∨ b.state = .parked ∨ b.state = .waking
    (¬ accepted → ∃ u, exec .reset s = .next u ∧ s.ActionAnswered t .badState b u)
    ∧ (accepted → s.WorkSound →
        ∃ (v : State) (u : State), exec .reset s = .next u ∧ u = v.finishWith t .ok
          ∧ (s.takeRequest t).Aborted t.request.actionBay .bayReset
              { b with state := .held, mainRail := true, auxRail := b.auxWanted, moduleReset := true, timer := some 10000
                       identity := none, pollTimer := none, owed := 0, timeouts := 0, forced := false, depth := none, cause := .none, drainRequested := false
                       lanes := Vector.replicate 4 Lane.shut, exchange := none, unit := none, queue := [], due := false, idLine := b.lineLeft } v
          ∧ u.bays = v.bays ∧ u.uplink = { s.uplink with intake := s.uplink.intake.set t.domain s.uplink.intake[t.domain].tail }
          ∧ u.tracker.entries[t.entry].state = .done
          ∧ u.tracker.entries[t.entry].response =
              some { domain := t.request.domain, tag := t.request.tag, status := .ok, unitsDone := 0, flags := {}, result := 0, payload := [] }
          ∧ u.events = v.events ∧ u.capture = v.capture)

/-- A removal, a bay reset and a fault take the bay down with its bus and lanes cleared, and abort every entry of its queue with MODULE_GONE, BAY_RESET or BAY_FAULTED; entries HELD for the bay become stale, and the posted writes of the queue take the posted failure path. A fault then offers its cause and raises BAY_FAULT, and a removal raises PRESENCE. An identity read that is cut short ends with its closing mark (R50, R55, R56, R57, R60, R62, R63, R73, R113, R118, R119, R121).
The places of the other responses where the queue does not hold its entries in the order taken, but for a SYNC's after those of its domain (log 11), the cause offered after the failed writes (log 12), their own order (log 31), a flag that a SYNC takes between two failures (log 32), and the rail-good that ends with the main rail (log 8) are the model's. -/
def Obligations.BayAbortEndsItsQueue : Prop :=
  ∀ (s : State) (b : BayId), s.WorkSound →
    let y := s.bays[b]
    let down (st : BayState) (c : FaultCause) : Bay :=
      { y with state := st, mainRail := false, auxRail := false, moduleReset := true, railGood := y.railGood && !y.mainRail, timer := none
               identity := none, pollTimer := none, owed := 0, timeouts := 0, forced := false, depth := none, cause := c, drainRequested := false
               lanes := Vector.replicate 4 Lane.shut, exchange := none, unit := none, queue := [], due := false, idLine := y.lineLeft }
    (∃ v, s.Aborted b .moduleGone (down .empty .none) v ∧ s.removal b = v.raise b .presence)
    ∧ (∀ c, c ≠ .none → ∃ v, s.Aborted b .bayFaulted (down .faulted c) v
        ∧ s.faultBay b c = (v.offer { kind := c.offerKind, who := none, bay := some b, xlat := none }).raise b .bayFault)
    ∧ s.Aborted b .bayReset { down .held .none with mainRail := true, auxRail := y.auxWanted, railGood := y.railGood, timer := some 10000 } (s.resetBay b)

/-- An offer fills an invalid capture record, or raises the more-count of a valid one, at most to 255; CAPTURE_CLEAR makes the record invalid and is answered OK; no other event but a power-on reset takes a valid record away or changes its first offer; and a third poll timeout on an invalid record leaves POLL_FAILED with more-count 1; a failed posted write offers the kind of its status, and a fault that of its cause (R50, R119, R170, R171, R172, Table 10-6). -/
def Obligations.CaptureKeepsFirstOfferUntilCleared : Prop :=
  [Status.moduleNak, .timeout, .railOff, .moduleGone, .bayReset, .bayFaulted, .bayNotReady].map Status.offerKind =
      [.moduleNak, .timeout, .railOff, .moduleGone, .bayReset, .bayFaulted, .bayNotReady]
    ∧ [FaultCause.railTimeout, .readyTimeout, .idNoAnswer, .identityBad, .exchangeTimeouts, .moduleNotReady].map FaultCause.offerKind =
      [.railTimeout, .readyTimeout, .idNoAnswer, .identityBad, .exchangeTimeouts, .moduleNotReady]
    ∧ (∀ (o : Offer) (s : State), (s.capture = none → (s.offer o).capture = some { offer := o, more := 0 })
      ∧ ∀ c, s.capture = some c → (s.offer o).capture = some { c with more := if c.more < 255 then c.more + 1 else c.more })
    ∧ (∀ (s : State) (t : Taken), s.TakesAction t 10 → ∃ u, exec .captureClear s = .next u ∧ s.Served t u ∧ s.AnsweredWith t .ok {} 0 [] u
        ∧ u.capture = none ∧ s.TablesKept u ∧ u.bays = s.bays ∧ u.events = s.events)
    ∧ (∀ (i : Instr) (s u : State) (c : CaptureRecord), exec i s = .next u → s.capture = some c → i ≠ .powerOnReset → i ≠ .captureClear →
        ∃ n, u.capture = some { c with more := n } ∧ c.more ≤ n ∧ (c.more ≤ 255 → n ≤ 255))
    ∧ ∀ (s : State) (b : BayId) (timeout : Nat), s.capture = none → s.bays[b].exchange = some { op := .poll, timeout := timeout } → s.bays[b].timeouts = 2 →
        (∀ e ∈ s.bays[b].queue, s.tracker.entries[e].posted = false) →
        ∃ u, exec (.exchangeTimeout b) s = .next u ∧ u.capture = some { offer := { kind := .pollFailed, who := none, bay := some b, xlat := none }, more := 1 }

/-! ### The bay bus -/

/-- An event that calls the arbiter makes a decision point due where the bus is free, and none where it is not. At the decision point that is due a forced poll goes first, then the deferred release of the lowest lane that may be released, and last, on an idle bay, a poll that is owed. In PARKING the entries are passed over (R67, R82, R83, R84, R126).
That a decision point is due until it is taken (log 14), and that the command of one that is not due changes nothing (log 1), is the model's choice. -/
def Obligations.PollsAndReleasesAtDecisionPoint : Prop :=
  ∀ (s : State) (b : BayId), s.bays[b].Sound →
    let y := s.bays[b]
    let becomes (x : Bay) : Prop := exec (.bayDecisionPoint b) s = .next (s.mapBay b fun _ => x)
    let poll : Exchange := { op := .poll, timeout := y.policy.exchangeTimeout }
    let now : Prop := y.BusFree ∧ y.due = true
    ((y.BusFree → y.callArbiter = { y with due := true }) ∧ (¬ y.BusFree → y.callArbiter = y))
    ∧ (¬ now → exec (.bayDecisionPoint b) s = .next s)
    ∧ (now → y.ForcedRun → becomes { y with forced := true, due := false, exchange := some poll })
    ∧ (now → ¬ y.ForcedRun → ∀ l : LaneId, y.Releasable l → (∀ k < l, ¬ y.Releasable k) →
        becomes { y with forced := false, due := false, lanes := y.lanes.set l { Lane.shut with state := .closing, page := y.lanes[l].page }
                         exchange := some { op := .release l, timeout := y.policy.exchangeTimeout } })
    ∧ (now → ¬ y.ForcedRun → (∀ l : LaneId, ¬ y.Releasable l) →
        (y.queue = [] → y.owed ≠ 0 → becomes { y with forced := false, due := false, exchange := some poll })
        ∧ ((y.queue = [] ∧ y.owed = 0 ∨ y.queue ≠ [] ∧ y.state = .parking) → becomes { y with forced := false, due := false }))

/-- Where no poll or release goes first, an ONLINE or DRAINING bay serves its entries: the RUNNING one goes on, but for a block at an interjection point, where the oldest candidate of another domain runs and the block is SUSPENDED; else the SUSPENDED block is taken up again; else the oldest QUEUED entry begins (R83, R85, R93, R94). -/
def Obligations.DecisionPointServesEntries : Prop :=
  ∀ (s : State) (b : BayId) (ahead behind : List EntryId) (e : EntryId), s.bays[b].BusFree → s.bays[b].due = true → s.bays[b].state ≠ .parking →
    ¬ s.bays[b].ForcedRun → (∀ l : LaneId, ¬ s.bays[b].Releasable l) → s.bays[b].queue = ahead ++ e :: behind →
    let q := s.bays[b].queue
    let state (x : EntryId) : EntryState := s.tracker.entries[x].state
    let s1 := s.mapBay b fun y => { y with forced := false, due := false }
    let begins : Prop := exec (.bayDecisionPoint b) s = .next ((s1.beginEntry b e).settle b)
    (state e = .running → (∀ x ∈ ahead, state x ≠ .running) →
      (¬ s.tracker.entries[e].AtInterjection → begins)
      ∧ (s.tracker.entries[e].AtInterjection → (∀ before c after, q = before ++ c :: after → ¬ s.tracker.Candidate e before c) → begins)
      ∧ ∀ before c after, s.tracker.entries[e].AtInterjection → q = before ++ c :: after → s.tracker.Candidate e before c →
          (∀ before' c' after', before = before' ++ c' :: after' → ¬ s.tracker.Candidate e before' c') →
          exec (.bayDecisionPoint b) s = .next (((s1.mapEntry e fun y => { y with state := .suspended }).beginEntry b c).settle b))
    ∧ ((∀ x ∈ q, state x ≠ .running) → state e = .suspended → (∀ x ∈ ahead, state x ≠ .suspended) → begins)
    ∧ ((∀ x ∈ q, state x ≠ .running) → (∀ x ∈ q, state x ≠ .suspended) → state e = .queued → (∀ x ∈ ahead, state x ≠ .queued) → begins)

/-- An entry whose next unit is to begin ends there where it is marked discard, and ends RAIL_OFF where it is an aux-gated write and the aux rail is off; the end brings the next decision point. Otherwise it is RUNNING and its unit is under way: at its data exchanges for PORT space and for a hit, and at its lane preparation for a lane in any other state (R12, R15, R16, R22, R65, R76, R82, R83, R88). -/
def Obligations.UnitBeginsByItsChecks : Prop :=
  ∀ (s : State) (b : BayId) (e : EntryId) (x : Translation), s.tracker.entries[e].xlat = some x →
    let y := s.bays[b]
    let n := s.tracker.entries[e]
    let gated : Prop := (n.kind = .write ∨ n.kind = .blockWrite ∨ n.kind = .fetchAdd) ∧ x.auxGated = true ∧ y.auxRail = false
    let begun (after : Bay) : Prop := s.beginEntry b e = (s.mapEntry e fun y => { y with state := .running }).mapBay b fun _ => after
    (n.discard = true → s.beginEntry b e = (s.endEntry b e .ok).mapBay b Bay.callArbiter)
    ∧ (n.discard = false → gated → s.beginEntry b e = (s.endEntry b e .railOff).mapBay b Bay.callArbiter)
    ∧ (n.discard = false → ¬ gated → ∃ u : UnitRun,
        u.entry = e ∧ u.size = n.size ∧ u.width = x.width ∧ u.policy = x.policy ∧ u.got = []
        ∧ (n.stride = .increment → u.addr = x.addr + n.unitsDone * n.size) ∧ (n.stride = .decrement → u.addr = x.addr - n.unitsDone * n.size)
        ∧ (n.stride = .hold ∨ n.stride = .none → u.addr = x.addr)
        ∧ (n.kind = .read ∨ n.kind = .blockRead → u.dir = .read)
        ∧ (n.kind = .write ∨ n.kind = .blockWrite → u.dir = .write ∧ u.value = ((bytesOfWords n.buffer).drop (n.unitsDone * n.size)).take n.size)
        ∧ (n.kind = .fetchAdd → u.dir = .fetchAdd ∧ u.value = bytesOfNat n.size n.operand.toNat)
        ∧ (x.kind = .port → u.place = none ∧ ∃ after, begun after ∧ y.DataBegins u after)
        ∧ (x.kind = .memory → ∃ p : LanePlace, u.place = some p ∧ p.page = u.addr / 4096 ∧ p.lane.val = p.page % y.laneCount % 4
            ∧ (y.lanes[p.lane].state = .closed → begun (y.selects u p))
            ∧ (y.lanes[p.lane].state = .closing → begun { y with unit := some { u with phase := .awaitRecovery } })
            ∧ (y.lanes[p.lane].state = .opened → y.lanes[p.lane].page = some p.page → ∃ after, begun after
                ∧ { y with lanes := y.lanes.set p.lane { y.lanes[p.lane] with releasePending := false } }.DataBegins u after)
            ∧ (y.lanes[p.lane].state = .opened → y.lanes[p.lane].page ≠ some p.page → y.lanes[p.lane].dwellExpired = true →
                begun { y with lanes := y.lanes.set p.lane { Lane.shut with state := .closing, page := y.lanes[p.lane].page }
                               unit := some { u with phase := .releasing }
                               exchange := some { op := .release p.lane, timeout := y.policy.exchangeTimeout } })
            ∧ (y.lanes[p.lane].state = .opened → y.lanes[p.lane].page ≠ some p.page → y.lanes[p.lane].dwellExpired = false →
                begun { y with unit := some { u with phase := .awaitDwell } })))

/-- The data exchanges of a unit: as many full-width ones as its size holds, at rising addresses with every byte enabled, or one at the address rounded down whose mask enables the unit's bytes alone and whose other bytes are driven as zero; the bytes kept of a read are those of the unit, least significant first. A FETCH_ADD writes the sum of the old value and the operand modulo 2^(8 × size), and carries where the sum is that or more. Bytes lie in words, and a value in its bytes, least significant first, and what is left of the last word is 0 (R17, R18, R19, R20, R97, R165). -/
def Obligations.UnitExchangesPlaceBytes : Prop :=
  ((∀ (ws : List Word) (j : Nat), (bytesOfWords ws)[j]? = ws[j / 4]?.map fun w => w.extractLsb' (8 * (j % 4)) 8)
    ∧ (∀ bs : List (BitVec 8), bytesOfWords (wordsOfBytes bs) = bs ++ List.replicate ((4 - bs.length % 4) % 4) 0)
    ∧ (natOfBytes [] = 0 ∧ ∀ (x : BitVec 8) (bs : List (BitVec 8)), natOfBytes (x :: bs) = x.toNat + 256 * natOfBytes bs)
    ∧ ∀ n v : Nat, (bytesOfNat n v).length = n ∧ natOfBytes (bytesOfNat n v) = v % 256 ^ n)
  ∧ (∀ u : UnitRun, u.size = 1 ∨ u.size = 2 ∨ u.size = 4 ∨ u.size = 8 → u.size ∣ u.addr → u.value.length = u.size →
    let w := u.width.bytes
    let i := u.addr % w
    (w ≤ u.size → exchangeCount u.size u.width = u.size / w ∧ ∀ j < u.size / w,
      let x := u.addr + j * w
      exchangeAddr u.addr u.width j = x ∧ w ∣ x
      ∧ (u.place.isSome = true → u.readOp j = .mread x u.width
          ∧ u.writeOp j = .mwrite x u.width ((u.value.drop (j * w)).take w) (List.replicate w true))
      ∧ (u.place = none → u.readOp j = .pread x u.width
          ∧ u.writeOp j = .pwrite x u.width ((u.value.drop (j * w)).take w) (List.replicate w true))
      ∧ ∀ data : Word, keptBytes u.addr u.size u.width x data = (List.range w).map (wordByte data))
    ∧ (u.size < w → exchangeCount u.size u.width = 1 ∧
      let x := u.addr - i
      let mask := (List.range w).map fun k => decide (i ≤ k ∧ k < i + u.size)
      let bytes := (List.range w).map fun k => if i ≤ k ∧ k < i + u.size then u.value.getD (k - i) 0 else 0
      exchangeAddr u.addr u.width 0 = x ∧ w ∣ x
      ∧ (u.place.isSome = true → u.readOp 0 = .mread x u.width ∧ u.writeOp 0 = .mwrite x u.width bytes mask)
      ∧ (u.place = none → u.readOp 0 = .pread x u.width ∧ u.writeOp 0 = .pwrite x u.width bytes mask)
      ∧ ∀ data : Word, keptBytes u.addr u.size u.width x data = (List.range u.size).map fun k => wordByte data (i + k)))
  ∧ ∀ (size : Nat) (old operand : List Byte),
      (fetchNew size old operand).length = size
      ∧ natOfBytes (fetchNew size old operand) = (natOfBytes old + natOfBytes operand) % 2 ^ (8 * size)
      ∧ (fetchCarry size old operand = true ↔ 2 ^ (8 * size) ≤ natOfBytes old + natOfBytes operand)

/-- The answer to an exchange of a lane preparation, which also sets the consecutive timeout count to 0. SELECT ACK opens the lane with its dwell running and begins the data exchanges; SELECT NAK closes the lane and fails the entry MODULE_NAK; RELEASE ACK or NAK starts the recovery, and the SELECT follows at once where the recovery is 0 (R70, R71, R73, R74, R75, R76, R77). -/
def Obligations.LanePreparationAnswers : Prop :=
  ∀ (s : State) (b : BayId) (x : Exchange) (u : UnitRun) (p : LanePlace) (data : Word) (w : StatusWord),
    s.bays[b].exchange = some x → x.op ≠ .poll → s.bays[b].unit = some u → u.place = some p →
    let y : Bay := { s.bays[b] with exchange := none, timeouts := 0 }
    let ack := Instr.exchangeAnswer b false (.ack data w)
    let nak := Instr.exchangeAnswer b false .nak
    (u.phase = .selecting →
      (∃ after, exec ack s = .next ((s.mapBay b fun _ => after).busRest b)
        ∧ { y with lanes := y.lanes.set p.lane { Lane.shut with state := .opened, page := y.lanes[p.lane].page
                                                                dwellExpired := y.dwell == 0
                                                                dwellTimer := if y.dwell = 0 then none else some y.dwell } }.DataBegins u after)
      ∧ exec nak s = .next (((s.mapBay b fun _ => { y with unit := none, lanes := y.lanes.set p.lane Lane.shut }).endEntry b u.entry .moduleNak).busRest b))
    ∧ (u.phase = .releasing → ∀ c, c = ack ∨ c = nak →
      (y.recovery ≠ 0 → exec c s = .next ((s.mapBay b fun _ => { y with lanes := y.recovering p.lane, unit := some { u with phase := .awaitRecovery } }).busRest b))
      ∧ (y.recovery = 0 → exec c s = .next ((s.mapBay b fun _ => y.selects u p).busRest b)))

/-- The answer to a data exchange, which also sets the consecutive timeout count to 0. An ACK that is not the last of its half leads to the next exchange; the last read of a FETCH_ADD stores the old value and the carry and begins the write half; the last ACK of a unit ends it, and with it a READ, WRITE or FETCH_ADD, a block whose count is reached, or a block marked discard; any NAK ends the unit and fails the entry MODULE_NAK (R20, R21, R65, R71, R89, R90, R97, R98, R99).
That a block marked discard ends with its unit is the model's inference from R65 (log 17). -/
def Obligations.DataExchangeAnswers : Prop :=
  ∀ (s : State) (b : BayId) (x : Exchange) (u : UnitRun) (data : Word) (w : StatusWord),
    s.bays[b].exchange = some x → x.op ≠ .poll → s.bays[b].unit = some u →
    let y : Bay := { s.bays[b] with exchange := none, timeouts := 0 }
    let n := s.tracker.entries[u.entry]
    let ack := exec (.exchangeAnswer b false (.ack data w)) s
    let nak := exec (.exchangeAnswer b false .nak) s
    let count := exchangeCount u.size u.width
    let ended := s.mapBay b fun _ => y.unitOver u
    let block : Prop := n.kind = .blockRead ∨ n.kind = .blockWrite
    let completes (bytes : List Byte) : Prop :=
      (n.kind = .read → ack = .next (((ended.mapEntry u.entry fun z => { z with buffer := wordsOfBytes bytes }).endEntry b u.entry .ok).busRest b))
      ∧ (n.kind = .write ∨ n.kind = .fetchAdd → ack = .next ((ended.endEntry b u.entry .ok).busRest b))
      ∧ (block → ∀ buffer, (n.kind = .blockWrite → buffer = n.buffer)
            → (n.kind = .blockRead → buffer = wordsOfBytes ((bytesOfWords n.buffer).take (n.unitsDone * n.size) ++ bytes)) →
          let counted := ended.mapEntry u.entry fun z => { z with unitsDone := n.unitsDone + 1, buffer := buffer }
          (n.unitsDone + 1 = n.count ∨ n.discard = true → ack = .next ((counted.endEntry b u.entry .ok).busRest b))
          ∧ (n.unitsDone + 1 ≠ n.count → n.discard = false → ack = .next (counted.busRest b)))
    (∀ j, u.phase = .reading j →
      let got := u.got ++ keptBytes u.addr u.size u.width (exchangeAddr u.addr u.width j) data
      (j + 1 < count → ack = .next ((s.mapBay b fun _ => { y with
          unit := some { u with got := got, phase := .reading (j + 1) }
          exchange := some { op := u.readOp (j + 1), timeout := y.policy.exchangeTimeout } }).busRest b))
      ∧ (count ≤ j + 1 → u.dir = .read → completes got)
      ∧ (count ≤ j + 1 → u.dir = .fetchAdd →
          let v : UnitRun := { u with got := got, value := fetchNew u.size got u.value }
          ack = .next (((s.mapBay b fun _ => { y with
            unit := some { v with phase := .writing 0 }
            exchange := some { op := v.writeOp 0, timeout := y.policy.exchangeTimeout } }).mapEntry u.entry fun z =>
              { z with oldValue := some (BitVec.ofNat 64 (natOfBytes got)), carry := fetchCarry u.size got u.value, buffer := wordsOfBytes got }).busRest b)))
    ∧ (∀ j, u.phase = .writing j →
      (j + 1 < count → ack = .next ((s.mapBay b fun _ => { y with
          unit := some { u with phase := .writing (j + 1) }
          exchange := some { op := u.writeOp (j + 1), timeout := y.policy.exchangeTimeout } }).busRest b))
      ∧ (count ≤ j + 1 → completes u.got))
    ∧ ∀ j, u.phase = .reading j ∨ u.phase = .writing j → nak = .next ((ended.endEntry b u.entry .moduleNak).busRest b)

/-- A late answer, and one with no exchange in progress, is discarded. A POLL answered ACK lowers the owed count, hands on the rises of the three conditions in order, keeps the word, and faults the bay on ready 0; answered NAK it lowers the count and offers POLL_FAILED. A deferred RELEASE answered starts the recovery of its lane. Each answer taken sets the consecutive timeout count to 0 (R68, R70, R71, R75, R128, R129, R130). -/
def Obligations.PollAndReleaseAnswers : Prop :=
  ∀ (s : State) (b : BayId) (data : Word) (w : StatusWord) (a : Answer),
    (∀ late, late = true ∨ s.bays[b].exchange = none → exec (.exchangeAnswer b late a) s = .next s)
    ∧ ∀ x, s.bays[b].exchange = some x →
      let y : Bay := { s.bays[b] with exchange := none, timeouts := 0 }
      let last := s.bays[b].lastStatus
      let polled := s.mapBay b fun _ => { y with owed := y.owed - 1 }
      let s1 := if last.attention = false ∧ w.attention = true then polled.raise b .attention else polled
      let s2 := if last.supplyWarn = false ∧ w.supplyWarn = true then s1.raise b .supplyWarn else s1
      let s3 := if last.supplyFail = false ∧ w.supplyFail = true then s2.raise b .supplyFail else s2
      let s4 := s3.mapBay b fun z => { z with lastStatus := w }
      (x.op = .poll →
        (w.ready = true → exec (.exchangeAnswer b false (.ack data w)) s = .next (s4.busRest b))
        ∧ (w.ready = false → y.state = .online ∨ y.state = .parking ∨ y.state = .draining →
            exec (.exchangeAnswer b false (.ack data w)) s = .next ((s4.faultBay b .moduleNotReady).busRest b))
        ∧ exec (.exchangeAnswer b false .nak) s = .next ((polled.offer { kind := .pollFailed, who := none, bay := some b, xlat := none }).busRest b))
      ∧ ∀ l, x.op = .release l → y.unit = none → exec (.exchangeAnswer b false a) s = .next ((s.mapBay b fun _ => { y with lanes := y.recovering l }).busRest b)

/-- The timeout of an exchange takes the exchange's own end first: a POLL lowers the owed count and offers POLL_FAILED, a deferred RELEASE starts the recovery of its lane, and an exchange of a unit starts the recovery of the unit's lane, if it has one, and fails the entry TIMEOUT. The consecutive timeout count rises by 1, and at 3 the bay then enters FAULTED with EXCHANGE_TIMEOUTS; the entries that its own end and the fault let go join the tail of each other bay's queue in the order taken, whichever of the two let them go (R53, R68, R70, R71, R73, R77, R130).
That a timeout with no exchange in progress is no event (log 1), that the fault is taken before a park or a drain could end (log 13), and that the own end is taken with all that it lets go (log 35), is the model's reading. -/
def Obligations.ExchangeTimeoutEndsExchange : Prop :=
  ∀ (s : State) (b : BayId),
    let y : Bay := { s.bays[b] with exchange := none, timeouts := s.bays[b].timeouts + 1 }
    let ends (v : State) : Prop :=
      (y.timeouts < 3 → exec (.exchangeTimeout b) s = .next (v.busRest b))
      ∧ (3 ≤ y.timeouts →
          let w := (v.faultBay b .exchangeTimeouts).busRest b
          ∃ u, exec (.exchangeTimeout b) s = .next u
            ∧ { u with bays := w.bays } = w ∧ (∀ c : BayId, { u.bays[c] with queue := w.bays[c].queue } = w.bays[c]) ∧ u.bays[b] = w.bays[b]
            ∧ (s.WorkSound → ∀ c : BayId, c ≠ b → ∃ joined, u.bays[c].queue = s.bays[c].queue ++ joined ∧ joined.Sublist s.tracker.taken
                ∧ ∀ e, e ∈ u.bays[c].queue ↔ e ∈ w.bays[c].queue))
    (s.bays[b].exchange = none → exec (.exchangeTimeout b) s = .next s)
    ∧ ∀ x, s.bays[b].exchange = some x →
      (x.op = .poll → ends ((s.mapBay b fun _ => { y with owed := y.owed - 1 }).offer { kind := .pollFailed, who := none, bay := some b, xlat := none }))
      ∧ (∀ l, x.op = .release l → y.unit = none → ends (s.mapBay b fun _ => { y with lanes := y.recovering l }))
      ∧ (∀ u, x.op ≠ .poll → y.unit = some u →
          ends ((s.mapBay b fun _ => { y with unit := none
                                              lanes := match u.place with
                                                | some p => y.recovering p.lane
                                                | none => y.lanes }).endEntry b u.entry .timeout))

/-- The end of an entry of a bay queue: it leaves the queue. A non-posted one is DONE with its status and its response joins the response order; one marked discard is freed. A posted one is DONE where its response is still ready and freed otherwise, and its failure sets the posted-fault flag, unless a SYNC that goes DONE in the event takes it, offers the error and raises POSTED_FAULT. After a posted one no hold list of its domain is left that may be released: the entries let go are QUEUED at their bays, or end BAY_NOT_READY where they are stale or the bay takes no requests. No SYNC of the domain is left that waits for nothing; those that go DONE end OK (R43, R46, R49, R50, R53, R54, R56, R57, R58, R60, R65). -/
def Obligations.EntryEndIsReported : Prop :=
  ∀ (s : State) (b : BayId) (e : EntryId) (st : Status), s.WorkSound → e ∈ s.bays[b].queue →
    let n := s.tracker.entries[e]
    let u := s.endEntry b e st
    e ∉ u.bays[b].queue ∧ u.uplink = s.uplink ∧ u.tables = s.tables ∧ s.events.TablesKept u.events ∧ u.pending = s.pending
    ∧ (∀ x ∈ s.tracker.taken, x ≠ e → (s.tracker.entries[x].domain ≠ n.domain ∨ s.tracker.entries[x].state ≠ .held ∧ s.tracker.entries[x].state ≠ .waiting) →
        u.tracker.entries[x] = s.tracker.entries[x])
    ∧ u.tracker.Ended e n st
    ∧ (n.posted = false → n.discard = false → u.tracker.entries[e].seq = some s.tracker.nextSeq ∧ ∃ later, u.tracker.order = s.tracker.order ++ e :: later)
    ∧ (u.tracker.SyncsWait n.domain ∧ (n.posted = true → u.tracker.HoldsStopped n.domain))
    ∧ (∀ x ∈ s.tracker.taken, s.tracker.entries[x].state = .held → s.tracker.entries[x].domain = n.domain → ∀ t, s.tracker.entries[x].xlat = some t →
        let y := s.bays[t.bay]
        let takes : Prop := (y.state = .online ∨ y.state = .parking ∨ y.state = .parked ∨ y.state = .waking) ∧ y.drainRequested = false
        u.tracker.entries[x] = s.tracker.entries[x]
        ∨ (n.posted = true ∧ s.tracker.entries[x].stale = false ∧ takes ∧ u.tracker.entries[x] = { s.tracker.entries[x] with state := .queued }
            ∧ x ∈ u.bays[t.bay].queue)
        ∨ (n.posted = true ∧ (s.tracker.entries[x].stale = true ∨ ¬ takes) ∧ u.tracker.entries[x].state ≠ .held
            ∧ (s.tracker.entries[x].discard = false → u.tracker.Ended x s.tracker.entries[x] .bayNotReady)))
    ∧ (∀ x ∈ s.tracker.taken, s.tracker.entries[x].state = .waiting → s.tracker.entries[x].domain = n.domain →
        let w := s.tracker.entries[x]
        u.tracker.entries[x] = w
        ∨ ∃ (flag : Bool) (k : Nat), u.tracker.entries[x] = { w with
            state := .done, status := .ok, flags := { w.flags with postedFault := flag }, seq := some k
            response := some { domain := w.domain, tag := w.tag, status := .ok, unitsDone := 0, flags := { w.flags with postedFault := flag, carry := w.carry }
                               result := w.result, payload := [] } })
    ∧ (n.posted = false → u.capture = s.capture ∧ u.events = s.events ∧ u.bays = s.bays.set b { s.bays[b] with queue := s.bays[b].queue.filter (· != e) })
    ∧ (n.posted = true → st ≠ .ok → ∀ x, n.xlat = some x →
            (u.tracker.postedFault[n.domain] = true ∨ s.FlagTaken u n.domain)
            ∧ (s.capture = none → ∃ more, u.capture = some { more := more, offer := { kind := st.offerKind, who := some (n.domain, n.tag), bay := some x.bay
                                                                                      xlat := some (x.aperture, x.addr) } })
            ∧ (s.bays[x.bay].policy.sense.getLsbD CondKind.postedFault.index = true →
                u.events.isPending (.bay (baySource x.bay CondKind.postedFault.index)) = true))

/-- The timers of a bay in service. A dwell expiry marks its OPEN lane dwell-expired, and a displacement that waited for it issues its RELEASE. A recovery expiry makes its CLOSING lane CLOSED, and a unit that waited for it issues its SELECT. A poll timer expiry restarts the timer with the effective interval and raises the owed count, which at 8 wakes a PARKED bay; an expiry that finds 8 raises POLL_OVERRUN. A wake timer expiry enters ONLINE, or DRAINING where a drain is requested. The dwell expiry of a lane whose release is pending, a rise of the owed count and the end of a wake bring a decision point where the bus is free; and at the end of an event that can end a park or a drain, the bay settles (R74, R75, R76, R82, R116, R117, R124, R125, R133, R134, R135).
That an expiry of a recovery, poll or wake timer that does not run is not taken is the model's choice (log 1); of the dwell timer R74 says it. -/
def Obligations.TimersInService : Prop :=
  ∀ (s : State) (b : BayId) (l : LaneId),
    let y := s.bays[b]
    let ln := y.lanes[l]
    ((y.OutputsSound → y.HoldingsSound → (y.state = .parking → y.unit = none) → y.Settles y.settle)
      ∧ s.settle b = (s.mapBay b fun _ => y.settle) ∧ s.busRest b = s.mapBay b fun _ => y.callArbiter.settle)
    ∧ (ln.state ≠ .opened ∨ ln.dwellTimer = none → exec (.dwellExpiry b l) s = .next s)
    ∧ (ln.state = .opened → ln.dwellTimer.isSome = true →
        let y1 : Bay := { y with lanes := y.lanes.set l { ln with dwellExpired := true, dwellTimer := none } }
        (∀ u p, y.unit = some u → u.phase = .awaitDwell → u.place = some p → p.lane = l → exec (.dwellExpiry b l) s = .next (s.mapBay b fun _ =>
            { y with lanes := y.lanes.set l { Lane.shut with state := .closing, page := ln.page }
                     unit := some { u with phase := .releasing }
                     exchange := some { op := .release l, timeout := y.policy.exchangeTimeout } }))
        ∧ ((∀ u p, y.unit = some u → u.place = some p → ¬ (u.phase = .awaitDwell ∧ p.lane = l)) →
            exec (.dwellExpiry b l) s = .next (s.mapBay b fun _ => if ln.releasePending then y1.callArbiter else y1)))
    ∧ (ln.state ≠ .closing ∨ ln.recoveryTimer = none → y.Sound → exec (.recoveryExpiry b l) s = .next s)
    ∧ (ln.state = .closing → ln.recoveryTimer.isSome = true →
        (∀ u p, y.unit = some u → u.phase = .awaitRecovery → u.place = some p → p.lane = l →
          exec (.recoveryExpiry b l) s = .next ((s.mapBay b fun _ => y.selects u p).settle b))
        ∧ ((∀ u p, y.unit = some u → u.place = some p → ¬ (u.phase = .awaitRecovery ∧ p.lane = l)) →
          exec (.recoveryExpiry b l) s = .next ((s.mapBay b fun _ => { y with lanes := y.lanes.set l Lane.shut }).settle b)))
    ∧ (y.pollTimer = none → exec (.pollTimerExpiry b) s = .next s)
    ∧ (y.pollTimer.isSome = true → ∀ n,
        (y.policy.pollOverride ≠ 0 → n = y.policy.pollOverride * 100)
        → (y.policy.pollOverride = 0 → ∀ id, y.identity = some id → (idPollInterval id ≠ 0 → n = idPollInterval id * 100) ∧ (idPollInterval id = 0 → n = 100000))
        → y.Sound →
        (y.owed < 7 ∨ y.owed = 7 ∧ y.state ≠ .parked → exec (.pollTimerExpiry b) s =
          .next (s.mapBay b fun _ => { y with pollTimer := some n, owed := y.owed + 1 }.callArbiter))
        ∧ (y.owed = 7 → y.state = .parked → ∃ u, exec (.pollTimerExpiry b) s = .next u
            ∧ (y.depth = some .light → u = s.mapBay b fun _ => { y with pollTimer := some n, owed := 8, state := .waking, timer := some 5 })
            ∧ ∀ id, y.identity = some id → y.depth = some .deep →
                (idDeepWake id ≠ 0 → u = s.mapBay b fun _ => { y with pollTimer := some n, owed := 8, state := .waking, timer := some (idDeepWake id) })
                ∧ (idDeepWake id = 0 → u = s.mapBay b fun _ => { y with pollTimer := some n, owed := 8, state := .online, depth := none, timeouts := 0, due := true }))
        ∧ (y.owed = 8 → exec (.pollTimerExpiry b) s = .next ((s.mapBay b fun _ => { y with pollTimer := some n }).raise b .pollOverrun)))
    ∧ (y.state ≠ .waking ∨ y.timer = none → exec (.wakeTimerExpiry b) s = .next s)
    ∧ (y.state = .waking → y.timer.isSome = true → y.Sound →
        let woken : Bay := { y with state := .online, timer := none, depth := none, timeouts := 0, due := true }
        (y.drainRequested = false → exec (.wakeTimerExpiry b) s = .next (s.mapBay b fun _ => woken))
        ∧ (y.drainRequested = true → exec (.wakeTimerExpiry b) s =
            .next ((s.mapBay b fun _ => { woken with state := .draining, drainRequested := false }).settle b)))

/-! ### The life of a module -/

/-- A presence contact that changes: in EMPTY the making of both starts the debounce; in SEATING a break returns the bay to EMPTY; in every other state a break is a removal; any other change is noted and no more (R104, R121).
That a contact reported at the level it has is no change, and that one made in a state in which both are made already, which R104 rules out, is noted and no more, is the model's choice (log 1). -/
def Obligations.PresenceContactsSeatAndRemove : Prop :=
  ∀ (s : State) (b : BayId) (c : Contact) (made : Bool), s.bays[b].Sound →
    let y := s.bays[b]
    let x : Bay := match c with
      | .first => { y with contactFirst := made }
      | .second => { y with contactSecond := made }
    let becomes (z : Bay) : Prop := exec (.presenceContactChange b c made) s = .next (s.mapBay b fun _ => z)
    (x = y → becomes y)
    ∧ (x ≠ y → y.state = .empty → x.contactFirst = true → x.contactSecond = true → becomes { x with state := .seating, timer := some 20000 })
    ∧ (x ≠ y → y.state = .empty → ¬ (x.contactFirst = true ∧ x.contactSecond = true) → becomes x)
    ∧ (x ≠ y → y.state = .seating → made = false → becomes { x with state := .empty, timer := none })
    ∧ (x ≠ y → y.state ≠ .empty → made = true → becomes x)
    ∧ (x ≠ y → y.state ≠ .empty → y.state ≠ .seating → made = false →
        exec (.presenceContactChange b c made) s = .next ((s.mapBay b fun _ => x).removal b))

/-- Bring-up by its timers and inputs. The debounce expiry raises PRESENCE and takes the bay to UNPOWERED under MANUAL and to POWERING under AUTO. Rail-good takes POWERING to HELD, and the rail timer faults it. The hold expiry releases module reset and takes the bay to STARTING. Module ready takes STARTING to IDENTIFYING, and the ready timer faults it. An input already asserted at the entry acts in the same event; outside its state it is noted and no more, but that FAULTED ends a rail-good that follows it; and an expiry of a stopped timer is not taken. Entering IDENTIFYING makes the opening mark of the identity read (R105, R106, R108, R109, R110, R113).
That a rail-good taken in EMPTY, SEATING or UNPOWERED, where the main rail is off, is noted, and so acts at a later entry into POWERING, is the model's choice (log 33). -/
def Obligations.BringUpFollowsTimersAndInputs : Prop :=
  ∀ (s : State) (b : BayId) (level : Bool), s.bays[b].Sound →
    let y := s.bays[b]
    let becomes (c : Instr) (z : Bay) : Prop := exec c s = .next (s.mapBay b fun _ => z)
    (y.state ≠ .seating → exec (.debounceExpiry b) s = .next s)
    ∧ (y.state = .seating → y.policy.power = .manual →
        exec (.debounceExpiry b) s = .next ((s.raise b .presence).mapBay b fun _ => { y with state := .unpowered, timer := none }))
    ∧ (y.state = .seating → y.policy.power = .auto → exec (.debounceExpiry b) s = .next ((s.raise b .presence).mapBay b fun _ =>
        { y with state := if y.railGood then .held else .powering, mainRail := true, auxRail := y.auxWanted
                 timer := some (if y.railGood then 10000 else 50000) }))
    ∧ (y.state = .powering → level = true → becomes (.railGood b level) { y with railGood := true, state := .held, timer := some 10000 })
    ∧ (y.state ≠ .powering → y.state ≠ .faulted → becomes (.railGood b level) { y with railGood := level })
    ∧ (level = false ∨ y.state = .faulted → becomes (.railGood b level) { y with railGood := false })
    ∧ (y.state = .powering → exec (.railTimerExpiry b) s = .next (s.faultBay b .railTimeout))
    ∧ (y.state ≠ .powering → exec (.railTimerExpiry b) s = .next s)
    ∧ (y.state = .held → becomes (.holdTimerExpiry b)
        { y with state := if y.moduleReady then .identifying else .starting, moduleReset := false
                 timer := if y.moduleReady then none else some (y.policy.readyTimeout * 1000)
                 idLine := if y.moduleReady then [.openingMark] else y.idLine })
    ∧ (y.state ≠ .held → exec (.holdTimerExpiry b) s = .next s)
    ∧ (y.state = .starting → level = true → becomes (.moduleReady b level)
        { y with moduleReady := true, state := .identifying, timer := none, idLine := [.openingMark] })
    ∧ (y.state ≠ .starting ∨ level = false → becomes (.moduleReady b level) { y with moduleReady := level })
    ∧ (y.state = .starting → exec (.readyTimerExpiry b) s = .next (s.faultBay b .readyTimeout))
    ∧ (y.state ≠ .starting → exec (.readyTimerExpiry b) s = .next s)

/-- The identity read, in the steps of Table 6-3. A slot left unacknowledged stops the read there, with the closing mark, and faults the bay ID_NO_ANSWER. Otherwise the part acknowledges bytes 0 to 30 and leaves byte 31 unacknowledged. At the closing mark the 32 bytes are accepted where they sum to 0 modulo 256, the format is 1 and the lane count is 1 to 4: the bay is ONLINE with the record, every lane CLOSED, nothing owed, the last status word zero, the poll timer started and a decision point due, and ONLINE is raised. Otherwise the bay faults IDENTITY_BAD. A read that has been abandoned is not checked. The lane count, the memory pages, the poll interval, the dwell, the recovery and the deep wake time of the bay are the bytes of the record (R13, R16, R74, R75, R82, R110, R111, R112, R113, R134, Table 9-10).
That the line shows what one read has put on it until the next read begins is the model's (log 18). -/
def Obligations.IdentityReadBringsBayOnline : Prop :=
  ∀ (s : State) (b : BayId) (p : IdPhase) (bytes : List (BitVec 8)), bytes.length = 32 → s.bays[b].Sound →
    let y := s.bays[b]
    let byte (j : Nat) : Nat := (bytes.getD j 0).toNat
    let accepted : Prop := 256 ∣ (bytes.map BitVec.toNat).sum ∧ byte 0 = 1 ∧ 1 ≤ byte 4 ∧ byte 4 ≤ 4
    let asked : List LineAct := [.openingMark, .address 0x4D .write true, .offset 0 true, .openingMark, .address 0x4D .read true]
    let line : List LineAct := asked ++ (List.range 32).map fun j => .data (bytes.getD j 0) (j != 31)
    let stopped : List LineAct := match p with
      | .addressWrite => [.openingMark, .address 0x4D .write false]
      | .offset => [.openingMark, .address 0x4D .write true, .offset 0 false]
      | .addressRead => [.openingMark, .address 0x4D .write true, .offset 0 true, .openingMark, .address 0x4D .read false]
    (y.state = .identifying → exec (.idNoAnswer { bay := b, phase := p }) s = .next ((s.mapBay b fun _ => { y with idLine := stopped }).faultBay b .idNoAnswer))
    ∧ (y.state ≠ .identifying → exec (.idNoAnswer { bay := b, phase := p }) s = .next s ∧ exec (.identityReadEnd b bytes) s = .next s)
    ∧ (y.state = .identifying → ¬ accepted → exec (.identityReadEnd b bytes) s = .next ((s.mapBay b fun _ => { y with idLine := line }).faultBay b .identityBad))
    ∧ (y.state = .identifying → accepted → ∃ (r : IdentityRecord) (n : Nat), r.toList = bytes
        ∧ (∀ x : Bay, x.identity = some r → x.laneCount = byte 4 ∧ x.memoryPages = byte 5 + 256 * byte 6 ∧ x.dwell = byte 9 ∧ x.recovery = byte 10
            ∧ x.deepWake = byte 11 + 256 * byte 12)
        ∧ idPollInterval r = byte 7 + 256 * byte 8 ∧ idMemoryPages r = byte 5 + 256 * byte 6 ∧ idDeepWake r = byte 11 + 256 * byte 12
        ∧ (y.policy.pollOverride ≠ 0 → n = y.policy.pollOverride * 100)
        ∧ (y.policy.pollOverride = 0 → byte 7 + 256 * byte 8 ≠ 0 → n = (byte 7 + 256 * byte 8) * 100)
        ∧ (y.policy.pollOverride = 0 → byte 7 + 256 * byte 8 = 0 → n = 100000)
        ∧ exec (.identityReadEnd b bytes) s = .next ((s.mapBay b fun _ =>
            { y with state := .online, identity := some r, lanes := Vector.replicate 4 Lane.shut, owed := 0, timeouts := 0, forced := false
                     pollTimer := some n, due := true, idLine := line ++ [.closingMark]
                     lastStatus := { ready := false, attention := false, supplyWarn := false, supplyFail := false, code := 0 } }).raise b .online))

/-! ### Invariants -/

/-- Every invariant below holds of the part after a power-on reset. -/
def Obligations.InvariantsHoldAtReset : Prop :=
  State.reset.uplink.Bounded ∧ State.reset.tables.AperturesSound ∧ State.reset.tracker.InOrder ∧ State.reset.tracker.Examined ∧ State.reset.WorkSound ∧ State.reset.BaysSound
    ∧ State.reset.Signalled ∧ State.reset.events.NoticesSignalled ∧ State.reset.events.Nested ∧ State.reset.events.Marked

/-- Every step keeps the queues of the uplink within their depths, each intake queue of its own domain's requests, and every valid aperture record within Table 1-2 (R3, R4, R161, R162). -/
def Obligations.UplinkAndAperturesStayBounded : Prop :=
  ∀ s u : State, step s = .next u → (s.uplink.Bounded → u.uplink.Bounded) ∧ (s.tables.AperturesSound → u.tables.AperturesSound)

/-- Every step keeps the tracker in order where the bay queues and the response order agree with its entries, as every step keeps them too: no non-posted entry through a STRICT aperture is at its bay while a posted write of its domain taken before it is incomplete (R51, 3.5). -/
def Obligations.TrackerStaysInOrder : Prop := ∀ s u : State, s.WorkSound → s.tracker.InOrder → step s = .next u → u.tracker.InOrder

/-- Every step keeps each bay queue to exactly the entries at that bay, the unit under way with the RUNNING entry of its queue, and the response order to exactly the entries whose response is ready; and it leaves no SYNC waiting that has nothing to wait for, and no hold list that may be released (R42, R53, R54, R56, R57, R58, R60). -/
def Obligations.WorkStaysSound : Prop :=
  ∀ s u : State, s.WorkSound → step s = .next u → u.WorkSound ∧ (s.tracker.Examined → u.tracker.Examined)

/-- Every step keeps every bay engine sound: its rails and module reset those of its state, no rail-good in FAULTED, its timers, identity record, depth and cause exactly in their states, the aux rail on only with the main rail and aux-wanted, an exchange only in ONLINE, PARKING and DRAINING, no poll beside a unit, a decision point due only with the bus free, at most 8 polls owed, and no lane flag outside OPEN (R72, R82, R86, R102, R106, R107, R110, R125). -/
def Obligations.BaysStaySound : Prop := ∀ s u : State, s.WorkSound → s.BaysSound → step s = .next u → u.BaysSound

/-- Every step keeps the event unit's books: a domain with a deliverable item is signalled, a notice waits only for a signalled domain, the priorities of every in-service list rise from oldest to newest, and an item's active mark is set exactly while an entry for it stands in one list, at most once in all (R143, R145, R146). -/
def Obligations.EventUnitKeepsItsBooks : Prop :=
  ∀ s u : State, step s = .next u →
    (s.Signalled → u.Signalled)
    ∧ (s.events.NoticesSignalled → u.events.NoticesSignalled)
    ∧ (s.events.Nested → u.events.Nested)
    ∧ (s.events.Marked → u.events.Marked)
end

