-- ==== Sys2Proof/Laws/State.lean ====
section
/-! SUPPORT. The fields of an updated state: one lemma for each field and each update of one record, so that no proof unfolds a record update. -/

namespace Sys2Proof.Machine

/-! ### Updating one bay -/

@[simp] theorem State.mapBay_uplink (b : BayId) (f : Bay → Bay) (s : State) : (s.mapBay b f).uplink = s.uplink := rfl
@[simp] theorem State.mapBay_tables (b : BayId) (f : Bay → Bay) (s : State) : (s.mapBay b f).tables = s.tables := rfl
@[simp] theorem State.mapBay_tracker (b : BayId) (f : Bay → Bay) (s : State) : (s.mapBay b f).tracker = s.tracker := rfl
@[simp] theorem State.mapBay_events (b : BayId) (f : Bay → Bay) (s : State) : (s.mapBay b f).events = s.events := rfl
@[simp] theorem State.mapBay_capture (b : BayId) (f : Bay → Bay) (s : State) : (s.mapBay b f).capture = s.capture := rfl
@[simp] theorem State.mapBay_pending (b : BayId) (f : Bay → Bay) (s : State) : (s.mapBay b f).pending = s.pending := rfl

@[simp] theorem State.mapBay_bays (b : BayId) (f : Bay → Bay) (s : State) : (s.mapBay b f).bays = s.bays.set b (f s.bays[b]) := rfl

theorem State.mapBay_same (b : BayId) (f : Bay → Bay) (s : State) : (s.mapBay b f).bays[b] = f s.bays[b] := by
  simp [State.mapBay]

theorem State.mapBay_other {b b' : BayId} (h : b' ≠ b) (f : Bay → Bay) (s : State) : (s.mapBay b f).bays[b'] = s.bays[b'] := by
  have hv : b.val ≠ b'.val := fun e => h (Fin.ext e.symm)
  simp [State.mapBay, Vector.getElem_set_ne, hv]

theorem State.mapBay_get (b b' : BayId) (f : Bay → Bay) (s : State) :
    (s.mapBay b f).bays[b'] = if b' = b then f s.bays[b] else s.bays[b'] := by
  by_cases h : b' = b
  · subst h; rw [if_pos rfl, State.mapBay_same]
  · rw [State.mapBay_other h, if_neg h]

/-! ### A decision point called for -/

@[simp] theorem Bay.callArbiter_state (b : Bay) : b.callArbiter.state = b.state := rfl
@[simp] theorem Bay.callArbiter_queue (b : Bay) : b.callArbiter.queue = b.queue := rfl
@[simp] theorem Bay.callArbiter_exchange (b : Bay) : b.callArbiter.exchange = b.exchange := rfl
@[simp] theorem Bay.callArbiter_unit (b : Bay) : b.callArbiter.unit = b.unit := rfl
@[simp] theorem Bay.callArbiter_lanes (b : Bay) : b.callArbiter.lanes = b.lanes := rfl
@[simp] theorem Bay.callArbiter_policy (b : Bay) : b.callArbiter.policy = b.policy := rfl
@[simp] theorem Bay.callArbiter_identity (b : Bay) : b.callArbiter.identity = b.identity := rfl
@[simp] theorem Bay.callArbiter_timer (b : Bay) : b.callArbiter.timer = b.timer := rfl
@[simp] theorem Bay.callArbiter_pollTimer (b : Bay) : b.callArbiter.pollTimer = b.pollTimer := rfl
@[simp] theorem Bay.callArbiter_owed (b : Bay) : b.callArbiter.owed = b.owed := rfl
@[simp] theorem Bay.callArbiter_forced (b : Bay) : b.callArbiter.forced = b.forced := rfl
@[simp] theorem Bay.callArbiter_timeouts (b : Bay) : b.callArbiter.timeouts = b.timeouts := rfl
@[simp] theorem Bay.callArbiter_depth (b : Bay) : b.callArbiter.depth = b.depth := rfl
@[simp] theorem Bay.callArbiter_idLine (b : Bay) : b.callArbiter.idLine = b.idLine := rfl

/-- An event of R82's list makes a decision point due exactly where the bus is free. -/
theorem Bay.callArbiter_due (b : Bay) : b.callArbiter.due = (b.due || b.busFree) := rfl

theorem Bay.callArbiter_of_free {b : Bay} (h : b.busFree = true) : b.callArbiter = { b with due := true } := by
  simp [Bay.callArbiter, h]

theorem Bay.callArbiter_of_busy {b : Bay} (h : b.busFree = false) : b.callArbiter = b := by
  simp [Bay.callArbiter, h]

@[simp] theorem State.busRest_uplink (b : BayId) (s : State) : (s.busRest b).uplink = s.uplink := rfl
@[simp] theorem State.busRest_tables (b : BayId) (s : State) : (s.busRest b).tables = s.tables := rfl
@[simp] theorem State.busRest_tracker (b : BayId) (s : State) : (s.busRest b).tracker = s.tracker := rfl
@[simp] theorem State.busRest_events (b : BayId) (s : State) : (s.busRest b).events = s.events := rfl
@[simp] theorem State.busRest_capture (b : BayId) (s : State) : (s.busRest b).capture = s.capture := rfl
@[simp] theorem State.busRest_pending (b : BayId) (s : State) : (s.busRest b).pending = s.pending := rfl

/-! ### Updating one tracker entry -/

@[simp] theorem State.mapEntry_uplink (e : EntryId) (f : Entry → Entry) (s : State) : (s.mapEntry e f).uplink = s.uplink := rfl
@[simp] theorem State.mapEntry_tables (e : EntryId) (f : Entry → Entry) (s : State) : (s.mapEntry e f).tables = s.tables := rfl
@[simp] theorem State.mapEntry_bays (e : EntryId) (f : Entry → Entry) (s : State) : (s.mapEntry e f).bays = s.bays := rfl
@[simp] theorem State.mapEntry_events (e : EntryId) (f : Entry → Entry) (s : State) : (s.mapEntry e f).events = s.events := rfl
@[simp] theorem State.mapEntry_capture (e : EntryId) (f : Entry → Entry) (s : State) : (s.mapEntry e f).capture = s.capture := rfl
@[simp] theorem State.mapEntry_pending (e : EntryId) (f : Entry → Entry) (s : State) : (s.mapEntry e f).pending = s.pending := rfl
@[simp] theorem State.mapEntry_tracker_taken (e : EntryId) (f : Entry → Entry) (s : State) : (s.mapEntry e f).tracker.taken = s.tracker.taken := rfl
@[simp] theorem State.mapEntry_tracker_postedFault (e : EntryId) (f : Entry → Entry) (s : State) : (s.mapEntry e f).tracker.postedFault = s.tracker.postedFault := rfl
@[simp] theorem State.mapEntry_tracker_order (e : EntryId) (f : Entry → Entry) (s : State) : (s.mapEntry e f).tracker.order = s.tracker.order := rfl
@[simp] theorem State.mapEntry_tracker_nextSeq (e : EntryId) (f : Entry → Entry) (s : State) : (s.mapEntry e f).tracker.nextSeq = s.tracker.nextSeq := rfl

@[simp] theorem State.mapEntry_entries (e : EntryId) (f : Entry → Entry) (s : State) :
    (s.mapEntry e f).tracker.entries = s.tracker.entries.set e (f s.tracker.entries[e]) := rfl

theorem State.mapEntry_same (e : EntryId) (f : Entry → Entry) (s : State) :
    (s.mapEntry e f).tracker.entries[e] = f s.tracker.entries[e] := by
  simp [State.mapEntry]

theorem State.mapEntry_other {e e' : EntryId} (h : e' ≠ e) (f : Entry → Entry) (s : State) :
    (s.mapEntry e f).tracker.entries[e'] = s.tracker.entries[e'] := by
  have hv : e.val ≠ e'.val := fun h' => h (Fin.ext h'.symm)
  simp [State.mapEntry, Vector.getElem_set_ne, hv]

theorem State.mapEntry_get (e e' : EntryId) (f : Entry → Entry) (s : State) :
    (s.mapEntry e f).tracker.entries[e'] = if e' = e then f s.tracker.entries[e] else s.tracker.entries[e'] := by
  by_cases h : e' = e
  · subst h; rw [if_pos rfl, State.mapEntry_same]
  · rw [State.mapEntry_other h, if_neg h]

/-! ### Updating one domain's delivery state -/

@[simp] theorem State.mapDelivery_uplink (d : DomainId) (f : Delivery → Delivery) (s : State) : (s.mapDelivery d f).uplink = s.uplink := rfl
@[simp] theorem State.mapDelivery_tables (d : DomainId) (f : Delivery → Delivery) (s : State) : (s.mapDelivery d f).tables = s.tables := rfl
@[simp] theorem State.mapDelivery_tracker (d : DomainId) (f : Delivery → Delivery) (s : State) : (s.mapDelivery d f).tracker = s.tracker := rfl
@[simp] theorem State.mapDelivery_bays (d : DomainId) (f : Delivery → Delivery) (s : State) : (s.mapDelivery d f).bays = s.bays := rfl
@[simp] theorem State.mapDelivery_capture (d : DomainId) (f : Delivery → Delivery) (s : State) : (s.mapDelivery d f).capture = s.capture := rfl
@[simp] theorem State.mapDelivery_pending (d : DomainId) (f : Delivery → Delivery) (s : State) : (s.mapDelivery d f).pending = s.pending := rfl
@[simp] theorem State.mapDelivery_events_routes (d : DomainId) (f : Delivery → Delivery) (s : State) : (s.mapDelivery d f).events.routes = s.events.routes := rfl
@[simp] theorem State.mapDelivery_events_descriptors (d : DomainId) (f : Delivery → Delivery) (s : State) : (s.mapDelivery d f).events.descriptors = s.events.descriptors := rfl
@[simp] theorem State.mapDelivery_events_limit (d : DomainId) (f : Delivery → Delivery) (s : State) : (s.mapDelivery d f).events.limit = s.events.limit := rfl
@[simp] theorem State.mapDelivery_events_bayPending (d : DomainId) (f : Delivery → Delivery) (s : State) : (s.mapDelivery d f).events.bayPending = s.events.bayPending := rfl
@[simp] theorem State.mapDelivery_events_msgPending (d : DomainId) (f : Delivery → Delivery) (s : State) : (s.mapDelivery d f).events.msgPending = s.events.msgPending := rfl
@[simp] theorem State.mapDelivery_events_bayActive (d : DomainId) (f : Delivery → Delivery) (s : State) : (s.mapDelivery d f).events.bayActive = s.events.bayActive := rfl
@[simp] theorem State.mapDelivery_events_msgActive (d : DomainId) (f : Delivery → Delivery) (s : State) : (s.mapDelivery d f).events.msgActive = s.events.msgActive := rfl

@[simp] theorem State.mapDelivery_delivery (d : DomainId) (f : Delivery → Delivery) (s : State) :
    (s.mapDelivery d f).events.delivery = s.events.delivery.set d (f s.events.delivery[d]) := rfl

theorem State.mapDelivery_same (d : DomainId) (f : Delivery → Delivery) (s : State) :
    (s.mapDelivery d f).events.delivery[d] = f s.events.delivery[d] := by
  simp [State.mapDelivery]

theorem State.mapDelivery_other {d d' : DomainId} (h : d' ≠ d) (f : Delivery → Delivery) (s : State) :
    (s.mapDelivery d f).events.delivery[d'] = s.events.delivery[d'] := by
  have hv : d.val ≠ d'.val := fun h' => h (Fin.ext h'.symm)
  simp [State.mapDelivery, Vector.getElem_set_ne, hv]

theorem State.mapDelivery_get (d d' : DomainId) (f : Delivery → Delivery) (s : State) :
    (s.mapDelivery d f).events.delivery[d'] = if d' = d then f s.events.delivery[d] else s.events.delivery[d'] := by
  by_cases h : d' = d
  · subst h; rw [if_pos rfl, State.mapDelivery_same]
  · rw [State.mapDelivery_other h, if_neg h]

/-! ### Offering an error -/

@[simp] theorem State.offer_uplink (o : Offer) (s : State) : (s.offer o).uplink = s.uplink := by unfold State.offer; split <;> rfl
@[simp] theorem State.offer_tables (o : Offer) (s : State) : (s.offer o).tables = s.tables := by unfold State.offer; split <;> rfl
@[simp] theorem State.offer_tracker (o : Offer) (s : State) : (s.offer o).tracker = s.tracker := by unfold State.offer; split <;> rfl
@[simp] theorem State.offer_bays (o : Offer) (s : State) : (s.offer o).bays = s.bays := by unfold State.offer; split <;> rfl
@[simp] theorem State.offer_events (o : Offer) (s : State) : (s.offer o).events = s.events := by unfold State.offer; split <;> rfl
@[simp] theorem State.offer_pending (o : Offer) (s : State) : (s.offer o).pending = s.pending := by unfold State.offer; split <;> rfl

/-- An offer fills an invalid record (R171). -/
theorem State.offer_invalid (o : Offer) (s : State) (h : s.capture = none) : (s.offer o).capture = some { offer := o, more := 0 } := by
  unfold State.offer; rw [h]

/-- An offer to a valid record raises its more-count alone (R171). -/
theorem State.offer_valid (o : Offer) (s : State) (c : CaptureRecord) (h : s.capture = some c) :
    (s.offer o).capture = some { c with more := if c.more < Config.moreMax then c.more + 1 else c.more } := by
  unfold State.offer; rw [h]

/-! ### The settling of a bay -/

@[simp] theorem State.settle_uplink (b : BayId) (s : State) : (s.settle b).uplink = s.uplink := rfl
@[simp] theorem State.settle_tables (b : BayId) (s : State) : (s.settle b).tables = s.tables := rfl
@[simp] theorem State.settle_tracker (b : BayId) (s : State) : (s.settle b).tracker = s.tracker := rfl
@[simp] theorem State.settle_events (b : BayId) (s : State) : (s.settle b).events = s.events := rfl
@[simp] theorem State.settle_capture (b : BayId) (s : State) : (s.settle b).capture = s.capture := rfl
@[simp] theorem State.settle_pending (b : BayId) (s : State) : (s.settle b).pending = s.pending := rfl

theorem State.settle_same (b : BayId) (s : State) : (s.settle b).bays[b] = s.bays[b].settle := State.mapBay_same b Bay.settle s

theorem State.settle_other {b b' : BayId} (h : b' ≠ b) (s : State) : (s.settle b).bays[b'] = s.bays[b'] := State.mapBay_other h Bay.settle s

/-! ### Responses, freeing and the end of an entry's work -/

@[simp] theorem State.makeReady_uplink (e : EntryId) (r : Response) (s : State) : (s.makeReady e r).uplink = s.uplink := rfl
@[simp] theorem State.makeReady_tables (e : EntryId) (r : Response) (s : State) : (s.makeReady e r).tables = s.tables := rfl
@[simp] theorem State.makeReady_bays (e : EntryId) (r : Response) (s : State) : (s.makeReady e r).bays = s.bays := rfl
@[simp] theorem State.makeReady_events (e : EntryId) (r : Response) (s : State) : (s.makeReady e r).events = s.events := rfl
@[simp] theorem State.makeReady_capture (e : EntryId) (r : Response) (s : State) : (s.makeReady e r).capture = s.capture := rfl
@[simp] theorem State.makeReady_pending (e : EntryId) (r : Response) (s : State) : (s.makeReady e r).pending = s.pending := rfl
@[simp] theorem State.freeEntry_uplink (e : EntryId) (s : State) : (s.freeEntry e).uplink = s.uplink := rfl
@[simp] theorem State.freeEntry_tables (e : EntryId) (s : State) : (s.freeEntry e).tables = s.tables := rfl
@[simp] theorem State.freeEntry_bays (e : EntryId) (s : State) : (s.freeEntry e).bays = s.bays := rfl
@[simp] theorem State.freeEntry_events (e : EntryId) (s : State) : (s.freeEntry e).events = s.events := rfl
@[simp] theorem State.freeEntry_capture (e : EntryId) (s : State) : (s.freeEntry e).capture = s.capture := rfl
@[simp] theorem State.freeEntry_pending (e : EntryId) (s : State) : (s.freeEntry e).pending = s.pending := rfl
@[simp] theorem State.goDone_uplink (e : EntryId) (st : Status) (s : State) : (s.goDone e st).uplink = s.uplink := rfl
@[simp] theorem State.goDone_tables (e : EntryId) (st : Status) (s : State) : (s.goDone e st).tables = s.tables := rfl
@[simp] theorem State.goDone_bays (e : EntryId) (st : Status) (s : State) : (s.goDone e st).bays = s.bays := rfl
@[simp] theorem State.goDone_events (e : EntryId) (st : Status) (s : State) : (s.goDone e st).events = s.events := rfl
@[simp] theorem State.goDone_capture (e : EntryId) (st : Status) (s : State) : (s.goDone e st).capture = s.capture := rfl
@[simp] theorem State.goDone_pending (e : EntryId) (st : Status) (s : State) : (s.goDone e st).pending = s.pending := rfl
@[simp] theorem State.readyDone_uplink (e : EntryId) (s : State) : (s.readyDone e).uplink = s.uplink := rfl
@[simp] theorem State.readyDone_tables (e : EntryId) (s : State) : (s.readyDone e).tables = s.tables := rfl
@[simp] theorem State.readyDone_bays (e : EntryId) (s : State) : (s.readyDone e).bays = s.bays := rfl
@[simp] theorem State.readyDone_events (e : EntryId) (s : State) : (s.readyDone e).events = s.events := rfl
@[simp] theorem State.readyDone_capture (e : EntryId) (s : State) : (s.readyDone e).capture = s.capture := rfl
@[simp] theorem State.readyDone_pending (e : EntryId) (s : State) : (s.readyDone e).pending = s.pending := rfl
@[simp] theorem State.syncDone_uplink (e : EntryId) (s : State) : (s.syncDone e).uplink = s.uplink := rfl
@[simp] theorem State.syncDone_tables (e : EntryId) (s : State) : (s.syncDone e).tables = s.tables := rfl
@[simp] theorem State.syncDone_bays (e : EntryId) (s : State) : (s.syncDone e).bays = s.bays := rfl
@[simp] theorem State.syncDone_events (e : EntryId) (s : State) : (s.syncDone e).events = s.events := rfl
@[simp] theorem State.syncDone_capture (e : EntryId) (s : State) : (s.syncDone e).capture = s.capture := rfl
@[simp] theorem State.syncDone_pending (e : EntryId) (s : State) : (s.syncDone e).pending = s.pending := rfl
@[simp] theorem State.dequeue_uplink (b : BayId) (e : EntryId) (s : State) : (s.dequeue b e).uplink = s.uplink := rfl
@[simp] theorem State.dequeue_tables (b : BayId) (e : EntryId) (s : State) : (s.dequeue b e).tables = s.tables := rfl
@[simp] theorem State.dequeue_tracker (b : BayId) (e : EntryId) (s : State) : (s.dequeue b e).tracker = s.tracker := rfl
@[simp] theorem State.dequeue_events (b : BayId) (e : EntryId) (s : State) : (s.dequeue b e).events = s.events := rfl
@[simp] theorem State.dequeue_capture (b : BayId) (e : EntryId) (s : State) : (s.dequeue b e).capture = s.capture := rfl
@[simp] theorem State.dequeue_pending (b : BayId) (e : EntryId) (s : State) : (s.dequeue b e).pending = s.pending := rfl

/-- Making a response ready puts it, with the next completion sequence, at the tail of the response order (R60). -/
theorem State.makeReady_order (e : EntryId) (r : Response) (s : State) : (s.makeReady e r).tracker.order = s.tracker.order ++ [e] := rfl

theorem State.makeReady_same (e : EntryId) (r : Response) (s : State) :
    (s.makeReady e r).tracker.entries[e] = { s.tracker.entries[e] with response := some r, seq := some s.tracker.nextSeq } := by
  simp [State.makeReady, State.mapEntry]

theorem State.makeReady_other {e e' : EntryId} (h : e' ≠ e) (r : Response) (s : State) :
    (s.makeReady e r).tracker.entries[e'] = s.tracker.entries[e'] :=
  State.mapEntry_other (s := s) h fun x => { x with response := some r, seq := some s.tracker.nextSeq }

@[simp] theorem State.makeReady_taken (e : EntryId) (r : Response) (s : State) : (s.makeReady e r).tracker.taken = s.tracker.taken := rfl

@[simp] theorem State.makeReady_postedFault (e : EntryId) (r : Response) (s : State) : (s.makeReady e r).tracker.postedFault = s.tracker.postedFault := rfl

@[simp] theorem State.makeReady_nextSeq (e : EntryId) (r : Response) (s : State) : (s.makeReady e r).tracker.nextSeq = s.tracker.nextSeq + 1 := rfl

theorem State.freeEntry_same (e : EntryId) (s : State) : (s.freeEntry e).tracker.entries[e] = Entry.blank := by
  simp [State.freeEntry, State.mapEntry]

theorem State.freeEntry_other {e e' : EntryId} (h : e' ≠ e) (s : State) :
    (s.freeEntry e).tracker.entries[e'] = s.tracker.entries[e'] := State.mapEntry_other h (fun _ => Entry.blank) s

/-- A freed entry leaves every list of the tracker (R43). -/
theorem State.freeEntry_taken (e : EntryId) (s : State) : (s.freeEntry e).tracker.taken = s.tracker.taken.filter (· != e) := rfl

theorem State.freeEntry_order (e : EntryId) (s : State) : (s.freeEntry e).tracker.order = s.tracker.order.filter (· != e) := rfl

@[simp] theorem State.freeEntry_postedFault (e : EntryId) (s : State) : (s.freeEntry e).tracker.postedFault = s.tracker.postedFault := rfl

@[simp] theorem State.freeEntry_nextSeq (e : EntryId) (s : State) : (s.freeEntry e).tracker.nextSeq = s.tracker.nextSeq := rfl

end Sys2Proof.Machine
end

