-- ==== Sys2Proof/Laws/Events.lean ====
section
/-! SUPPORT. The event unit's shared operations: what a re-examination, a latch and a rise can change, and what deliverability reads. -/

namespace Sys2Proof.Machine

/-! ### Deliverability -/

/-- Every item routed to a domain is among its items. -/
theorem mem_itemsOf (u : EventUnit) (d : DomainId) (it : Item) (h : u.routedTo it = d) : it ∈ itemsOf d := by
  cases it with
  | bay s => simp [itemsOf]
  | msg c e =>
    simp only [EventUnit.routedTo] at h
    simp [itemsOf, h]

/-- A fold of `better` answers none only on no item at all. -/
theorem State.foldl_better_isSome (s : State) (l : List Item) (b : Option Item) :
    (l.foldl s.better b).isSome = (b.isSome || !l.isEmpty) := by
  induction l generalizing b with
  | nil => simp
  | cons x xs ih =>
    rw [List.foldl_cons, ih]
    cases b with
    | none => simp [State.better]
    | some y => simp only [State.better]; split <;> simp

/-- A domain has a highest deliverable item exactly when it has a deliverable item (R144). -/
theorem State.highest_isSome (s : State) (d : DomainId) : (s.highest d).isSome = true ↔ ∃ it, s.deliverable d it = true := by
  unfold State.highest
  rw [State.foldl_better_isSome]
  simp only [Option.isSome_none, Bool.false_or, Bool.not_eq_true', List.isEmpty_eq_false_iff_exists_mem, List.mem_filter]
  constructor
  · rintro ⟨it, _, h⟩; exact ⟨it, h⟩
  · rintro ⟨it, h⟩
    refine ⟨it, mem_itemsOf s.events d it ?_, h⟩
    simp only [State.deliverable, Bool.and_eq_true, beq_iff_eq] at h
    exact h.1.1.1.1.1.1.2

/-- Deliverability reads the latches, the routes, the marks, the threshold and list of the domain, and whether it is enabled (R144). -/
theorem State.deliverable_congr (s t : State) (d : DomainId) (it : Item)
    (hp : t.events.isPending it = s.events.isPending it) (hr : t.events.routes = s.events.routes)
    (hth : t.events.delivery[d].threshold = s.events.delivery[d].threshold)
    (hl : t.events.delivery[d].inService = s.events.delivery[d].inService)
    (ha : t.events.isActive it = s.events.isActive it)
    (he : t.tables.domains[d].enabled = s.tables.domains[d].enabled) :
    t.deliverable d it = s.deliverable d it := by
  have hto : t.events.routedTo it = s.events.routedTo it := by cases it <;> simp [EventUnit.routedTo, hr]
  simp only [State.deliverable, hp, hr, hth, hl, ha, he, hto]

/-! ### Re-examination (R145, R146) -/
@[simp] theorem State.reexamine_uplink (d : DomainId) (s : State) : (s.reexamine d).uplink = s.uplink := by
  unfold State.reexamine; split <;> rfl
@[simp] theorem State.reexamine_tables (d : DomainId) (s : State) : (s.reexamine d).tables = s.tables := by
  unfold State.reexamine; split <;> rfl
@[simp] theorem State.reexamine_tracker (d : DomainId) (s : State) : (s.reexamine d).tracker = s.tracker := by
  unfold State.reexamine; split <;> rfl
@[simp] theorem State.reexamine_bays (d : DomainId) (s : State) : (s.reexamine d).bays = s.bays := by
  unfold State.reexamine; split <;> rfl
@[simp] theorem State.reexamine_capture (d : DomainId) (s : State) : (s.reexamine d).capture = s.capture := by
  unfold State.reexamine; split <;> rfl
@[simp] theorem State.reexamine_pending (d : DomainId) (s : State) : (s.reexamine d).pending = s.pending := by
  unfold State.reexamine; split <;> rfl
@[simp] theorem State.reexamine_events_routes (d : DomainId) (s : State) : (s.reexamine d).events.routes = s.events.routes := by
  unfold State.reexamine; split <;> rfl
@[simp] theorem State.reexamine_events_descriptors (d : DomainId) (s : State) : (s.reexamine d).events.descriptors = s.events.descriptors := by
  unfold State.reexamine; split <;> rfl
@[simp] theorem State.reexamine_events_limit (d : DomainId) (s : State) : (s.reexamine d).events.limit = s.events.limit := by
  unfold State.reexamine; split <;> rfl
@[simp] theorem State.reexamine_events_bayPending (d : DomainId) (s : State) : (s.reexamine d).events.bayPending = s.events.bayPending := by
  unfold State.reexamine; split <;> rfl
@[simp] theorem State.reexamine_events_msgPending (d : DomainId) (s : State) : (s.reexamine d).events.msgPending = s.events.msgPending := by
  unfold State.reexamine; split <;> rfl
@[simp] theorem State.reexamine_events_bayActive (d : DomainId) (s : State) : (s.reexamine d).events.bayActive = s.events.bayActive := by
  unfold State.reexamine; split <;> rfl
@[simp] theorem State.reexamine_events_msgActive (d : DomainId) (s : State) : (s.reexamine d).events.msgActive = s.events.msgActive := by
  unfold State.reexamine; split <;> rfl

/-- A re-examination keeps every threshold. -/
theorem State.reexamine_threshold (d d' : DomainId) (s : State) :
    (s.reexamine d).events.delivery[d'].threshold = s.events.delivery[d'].threshold := by
  unfold State.reexamine; split
  · rw [State.mapDelivery_get]; split
    · next h => subst h; rfl
    · rfl
  · rfl

@[simp] theorem State.reexamine_threshold_at (d : DomainId) (i : Nat) (hi : i < 8) (s : State) :
    (s.reexamine d).events.delivery[i].threshold = s.events.delivery[i].threshold := State.reexamine_threshold d ⟨i, hi⟩ s

/-- A re-examination keeps every in-service list. -/
theorem State.reexamine_inService (d d' : DomainId) (s : State) :
    (s.reexamine d).events.delivery[d'].inService = s.events.delivery[d'].inService := by
  unfold State.reexamine; split
  · rw [State.mapDelivery_get]; split
    · next h => subst h; rfl
    · rfl
  · rfl

@[simp] theorem State.reexamine_inService_at (d : DomainId) (i : Nat) (hi : i < 8) (s : State) :
    (s.reexamine d).events.delivery[i].inService = s.events.delivery[i].inService := State.reexamine_inService d ⟨i, hi⟩ s

/-- A re-examination of `d` reaches no other domain. -/
theorem State.reexamine_other {d d' : DomainId} (h : d' ≠ d) (s : State) :
    (s.reexamine d).events.delivery[d'] = s.events.delivery[d'] := by
  unfold State.reexamine; split
  · exact State.mapDelivery_other h _ s
  · rfl

/-- A re-examination clears no signal flag. -/
theorem State.reexamine_signal (d d' : DomainId) (s : State) (h : s.events.delivery[d'].signal = true) :
    (s.reexamine d).events.delivery[d'].signal = true := by
  unfold State.reexamine; split
  · rw [State.mapDelivery_get]; split
    · rfl
    · exact h
  · exact h

/-- A re-examination changes deliverability nowhere. -/
@[simp] theorem State.reexamine_deliverable (d d' : DomainId) (it : Item) (s : State) :
    (s.reexamine d).deliverable d' it = s.deliverable d' it :=
  State.deliverable_congr _ _ _ _ (by cases it <;> simp [EventUnit.isPending]) (by simp) (by simp) (by simp)
    (by cases it <;> simp [EventUnit.isActive]) (by simp)

/-- After a re-examination of `d`, a deliverable item means a set signal flag (R145, R146). -/
theorem State.reexamine_signalled (d : DomainId) (s : State) (it : Item) (h : s.deliverable d it = true) :
    (s.reexamine d).events.delivery[d].signal = true := by
  have hs : (s.highest d).isSome = true := (s.highest_isSome d).2 ⟨it, h⟩
  unfold State.reexamine
  by_cases hf : s.events.delivery[d].signal = true
  · simp only [hs, hf, Bool.not_true, Bool.and_false, Bool.false_eq_true, if_false]
  · simp only [hs, Bool.eq_false_iff.2 hf, Bool.not_false, Bool.and_self, if_true]
    rw [State.mapDelivery_same]

/-! ### Several re-examinations -/

@[simp] theorem State.reexamineAll_uplink (ds : List DomainId) (s : State) : (s.reexamineAll ds).uplink = s.uplink := by
  unfold State.reexamineAll; induction ds generalizing s with
  | nil => rfl
  | cons d ds ih => rw [List.foldl_cons, ih, State.reexamine_uplink]
@[simp] theorem State.reexamineAll_tables (ds : List DomainId) (s : State) : (s.reexamineAll ds).tables = s.tables := by
  unfold State.reexamineAll; induction ds generalizing s with
  | nil => rfl
  | cons d ds ih => rw [List.foldl_cons, ih, State.reexamine_tables]
@[simp] theorem State.reexamineAll_tracker (ds : List DomainId) (s : State) : (s.reexamineAll ds).tracker = s.tracker := by
  unfold State.reexamineAll; induction ds generalizing s with
  | nil => rfl
  | cons d ds ih => rw [List.foldl_cons, ih, State.reexamine_tracker]
@[simp] theorem State.reexamineAll_bays (ds : List DomainId) (s : State) : (s.reexamineAll ds).bays = s.bays := by
  unfold State.reexamineAll; induction ds generalizing s with
  | nil => rfl
  | cons d ds ih => rw [List.foldl_cons, ih, State.reexamine_bays]
@[simp] theorem State.reexamineAll_capture (ds : List DomainId) (s : State) : (s.reexamineAll ds).capture = s.capture := by
  unfold State.reexamineAll; induction ds generalizing s with
  | nil => rfl
  | cons d ds ih => rw [List.foldl_cons, ih, State.reexamine_capture]
@[simp] theorem State.reexamineAll_pending (ds : List DomainId) (s : State) : (s.reexamineAll ds).pending = s.pending := by
  unfold State.reexamineAll; induction ds generalizing s with
  | nil => rfl
  | cons d ds ih => rw [List.foldl_cons, ih, State.reexamine_pending]
@[simp] theorem State.reexamineAll_events_routes (ds : List DomainId) (s : State) : (s.reexamineAll ds).events.routes = s.events.routes := by
  unfold State.reexamineAll; induction ds generalizing s with
  | nil => rfl
  | cons d ds ih => rw [List.foldl_cons, ih, State.reexamine_events_routes]
@[simp] theorem State.reexamineAll_events_descriptors (ds : List DomainId) (s : State) : (s.reexamineAll ds).events.descriptors = s.events.descriptors := by
  unfold State.reexamineAll; induction ds generalizing s with
  | nil => rfl
  | cons d ds ih => rw [List.foldl_cons, ih, State.reexamine_events_descriptors]
@[simp] theorem State.reexamineAll_events_limit (ds : List DomainId) (s : State) : (s.reexamineAll ds).events.limit = s.events.limit := by
  unfold State.reexamineAll; induction ds generalizing s with
  | nil => rfl
  | cons d ds ih => rw [List.foldl_cons, ih, State.reexamine_events_limit]
@[simp] theorem State.reexamineAll_events_bayPending (ds : List DomainId) (s : State) : (s.reexamineAll ds).events.bayPending = s.events.bayPending := by
  unfold State.reexamineAll; induction ds generalizing s with
  | nil => rfl
  | cons d ds ih => rw [List.foldl_cons, ih, State.reexamine_events_bayPending]
@[simp] theorem State.reexamineAll_events_msgPending (ds : List DomainId) (s : State) : (s.reexamineAll ds).events.msgPending = s.events.msgPending := by
  unfold State.reexamineAll; induction ds generalizing s with
  | nil => rfl
  | cons d ds ih => rw [List.foldl_cons, ih, State.reexamine_events_msgPending]
@[simp] theorem State.reexamineAll_events_bayActive (ds : List DomainId) (s : State) : (s.reexamineAll ds).events.bayActive = s.events.bayActive := by
  unfold State.reexamineAll; induction ds generalizing s with
  | nil => rfl
  | cons d ds ih => rw [List.foldl_cons, ih, State.reexamine_events_bayActive]
@[simp] theorem State.reexamineAll_events_msgActive (ds : List DomainId) (s : State) : (s.reexamineAll ds).events.msgActive = s.events.msgActive := by
  unfold State.reexamineAll; induction ds generalizing s with
  | nil => rfl
  | cons d ds ih => rw [List.foldl_cons, ih, State.reexamine_events_msgActive]

theorem State.reexamineAll_threshold (ds : List DomainId) (d' : DomainId) (s : State) :
    (s.reexamineAll ds).events.delivery[d'].threshold = s.events.delivery[d'].threshold := by
  unfold State.reexamineAll; induction ds generalizing s with
  | nil => rfl
  | cons d ds ih => rw [List.foldl_cons, ih, State.reexamine_threshold]

@[simp] theorem State.reexamineAll_threshold_at (ds : List DomainId) (i : Nat) (hi : i < 8) (s : State) :
    (s.reexamineAll ds).events.delivery[i].threshold = s.events.delivery[i].threshold := State.reexamineAll_threshold ds ⟨i, hi⟩ s

theorem State.reexamineAll_inService (ds : List DomainId) (d' : DomainId) (s : State) :
    (s.reexamineAll ds).events.delivery[d'].inService = s.events.delivery[d'].inService := by
  unfold State.reexamineAll; induction ds generalizing s with
  | nil => rfl
  | cons d ds ih => rw [List.foldl_cons, ih, State.reexamine_inService]

@[simp] theorem State.reexamineAll_inService_at (ds : List DomainId) (i : Nat) (hi : i < 8) (s : State) :
    (s.reexamineAll ds).events.delivery[i].inService = s.events.delivery[i].inService := State.reexamineAll_inService ds ⟨i, hi⟩ s

@[simp] theorem State.reexamineAll_deliverable (ds : List DomainId) (d' : DomainId) (it : Item) (s : State) :
    (s.reexamineAll ds).deliverable d' it = s.deliverable d' it := by
  unfold State.reexamineAll; induction ds generalizing s with
  | nil => rfl
  | cons d ds ih => rw [List.foldl_cons, ih, State.reexamine_deliverable]

theorem State.reexamineAll_signal (ds : List DomainId) (d' : DomainId) (s : State) (h : s.events.delivery[d'].signal = true) :
    (s.reexamineAll ds).events.delivery[d'].signal = true := by
  unfold State.reexamineAll; induction ds generalizing s with
  | nil => exact h
  | cons d ds ih => rw [List.foldl_cons]; exact ih _ (State.reexamine_signal d d' s h)

/-- After re-examinations that include `d`, a deliverable item of `d` means a set signal flag. -/
theorem State.reexamineAll_signalled (ds : List DomainId) (d : DomainId) (hd : d ∈ ds) (s : State) (it : Item)
    (h : s.deliverable d it = true) : (s.reexamineAll ds).events.delivery[d].signal = true := by
  unfold State.reexamineAll; induction ds generalizing s with
  | nil => cases hd
  | cons x xs ih =>
    rw [List.foldl_cons]
    by_cases hx : x = d
    · subst hx
      exact State.reexamineAll_signal xs x _ (State.reexamine_signalled x s it h)
    · exact ih (by simpa [Ne.symm hx] using hd) _ (by rw [State.reexamine_deliverable]; exact h)

/-! ### Latches and marks -/

/-- The places of message items are distinct. -/
theorem msgIndex_inj {c c' : Fin 4} {e e' : DomainId} (h : (msgIndex c e).val = (msgIndex c' e').val) : c = c' ∧ e = e' := by
  simp only [msgIndex] at h
  constructor <;> apply Fin.ext <;> omega

theorem EventUnit.isPending_setPending (u : EventUnit) (it it' : Item) (v : Bool) :
    (u.setPending it v).isPending it' = if it' = it then v else u.isPending it' := by
  cases it with
  | bay s =>
    cases it' with
    | bay s' => simp only [EventUnit.setPending, EventUnit.isPending, Fin.getElem_fin, Vector.getElem_set, Item.bay.injEq, Fin.ext_iff, eq_comm]
    | msg c e => simp [EventUnit.setPending, EventUnit.isPending]
  | msg c e =>
    cases it' with
    | bay s' => simp [EventUnit.setPending, EventUnit.isPending]
    | msg c' e' =>
      by_cases h : (msgIndex c e).val = (msgIndex c' e').val
      · obtain ⟨rfl, rfl⟩ := msgIndex_inj h; simp [EventUnit.setPending, EventUnit.isPending]
      · have h' : ¬ (c' = c ∧ e' = e) := by rintro ⟨rfl, rfl⟩; exact h rfl
        simp [EventUnit.setPending, EventUnit.isPending, h, h']

theorem EventUnit.isActive_setActive (u : EventUnit) (it it' : Item) (v : Bool) :
    (u.setActive it v).isActive it' = if it' = it then v else u.isActive it' := by
  cases it with
  | bay s =>
    cases it' with
    | bay s' => simp only [EventUnit.setActive, EventUnit.isActive, Fin.getElem_fin, Vector.getElem_set, Item.bay.injEq, Fin.ext_iff, eq_comm]
    | msg c e => simp [EventUnit.setActive, EventUnit.isActive]
  | msg c e =>
    cases it' with
    | bay s' => simp [EventUnit.setActive, EventUnit.isActive]
    | msg c' e' =>
      by_cases h : (msgIndex c e).val = (msgIndex c' e').val
      · obtain ⟨rfl, rfl⟩ := msgIndex_inj h; simp [EventUnit.setActive, EventUnit.isActive]
      · have h' : ¬ (c' = c ∧ e' = e) := by rintro ⟨rfl, rfl⟩; exact h rfl
        simp [EventUnit.setActive, EventUnit.isActive, h, h']

@[simp] theorem EventUnit.setPending_routes (u : EventUnit) (it : Item) (v : Bool) : (u.setPending it v).routes = u.routes := by
  cases it <;> rfl
@[simp] theorem EventUnit.setPending_descriptors (u : EventUnit) (it : Item) (v : Bool) : (u.setPending it v).descriptors = u.descriptors := by
  cases it <;> rfl
@[simp] theorem EventUnit.setPending_limit (u : EventUnit) (it : Item) (v : Bool) : (u.setPending it v).limit = u.limit := by
  cases it <;> rfl
@[simp] theorem EventUnit.setPending_delivery (u : EventUnit) (it : Item) (v : Bool) : (u.setPending it v).delivery = u.delivery := by
  cases it <;> rfl
@[simp] theorem EventUnit.setPending_bayActive (u : EventUnit) (it : Item) (v : Bool) : (u.setPending it v).bayActive = u.bayActive := by
  cases it <;> rfl
@[simp] theorem EventUnit.setPending_msgActive (u : EventUnit) (it : Item) (v : Bool) : (u.setPending it v).msgActive = u.msgActive := by
  cases it <;> rfl
@[simp] theorem EventUnit.setActive_routes (u : EventUnit) (it : Item) (v : Bool) : (u.setActive it v).routes = u.routes := by
  cases it <;> rfl
@[simp] theorem EventUnit.setActive_descriptors (u : EventUnit) (it : Item) (v : Bool) : (u.setActive it v).descriptors = u.descriptors := by
  cases it <;> rfl
@[simp] theorem EventUnit.setActive_limit (u : EventUnit) (it : Item) (v : Bool) : (u.setActive it v).limit = u.limit := by
  cases it <;> rfl
@[simp] theorem EventUnit.setActive_delivery (u : EventUnit) (it : Item) (v : Bool) : (u.setActive it v).delivery = u.delivery := by
  cases it <;> rfl
@[simp] theorem EventUnit.setActive_bayPending (u : EventUnit) (it : Item) (v : Bool) : (u.setActive it v).bayPending = u.bayPending := by
  cases it <;> rfl
@[simp] theorem EventUnit.setActive_msgPending (u : EventUnit) (it : Item) (v : Bool) : (u.setActive it v).msgPending = u.msgPending := by
  cases it <;> rfl

@[simp] theorem EventUnit.setPending_isActive (u : EventUnit) (it it' : Item) (v : Bool) : (u.setPending it v).isActive it' = u.isActive it' := by
  cases it <;> cases it' <;> rfl

@[simp] theorem EventUnit.setActive_isPending (u : EventUnit) (it it' : Item) (v : Bool) : (u.setActive it v).isPending it' = u.isPending it' := by
  cases it <;> cases it' <;> rfl

/-! ### A latch set, and a rise (R131, R138, R139) -/

@[simp] theorem State.latch_uplink (it : Item) (s : State) : (s.latch it).uplink = s.uplink := by
  unfold State.latch; simp
@[simp] theorem State.latch_tables (it : Item) (s : State) : (s.latch it).tables = s.tables := by
  unfold State.latch; simp
@[simp] theorem State.latch_tracker (it : Item) (s : State) : (s.latch it).tracker = s.tracker := by
  unfold State.latch; simp
@[simp] theorem State.latch_bays (it : Item) (s : State) : (s.latch it).bays = s.bays := by
  unfold State.latch; simp
@[simp] theorem State.latch_capture (it : Item) (s : State) : (s.latch it).capture = s.capture := by
  unfold State.latch; simp
@[simp] theorem State.latch_pending (it : Item) (s : State) : (s.latch it).pending = s.pending := by
  unfold State.latch; simp
@[simp] theorem State.latch_events_routes (it : Item) (s : State) : (s.latch it).events.routes = s.events.routes := by
  unfold State.latch; simp
@[simp] theorem State.latch_events_descriptors (it : Item) (s : State) : (s.latch it).events.descriptors = s.events.descriptors := by
  unfold State.latch; simp
@[simp] theorem State.latch_events_limit (it : Item) (s : State) : (s.latch it).events.limit = s.events.limit := by
  unfold State.latch; simp
@[simp] theorem State.latch_events_bayActive (it : Item) (s : State) : (s.latch it).events.bayActive = s.events.bayActive := by
  unfold State.latch; simp
@[simp] theorem State.latch_events_msgActive (it : Item) (s : State) : (s.latch it).events.msgActive = s.events.msgActive := by
  unfold State.latch; simp
@[simp] theorem State.raise_uplink (b : BayId) (k : CondKind) (s : State) : (s.raise b k).uplink = s.uplink := by
  unfold State.raise; split
  · rw [State.latch_uplink]
  · rfl
@[simp] theorem State.raise_tables (b : BayId) (k : CondKind) (s : State) : (s.raise b k).tables = s.tables := by
  unfold State.raise; split
  · rw [State.latch_tables]
  · rfl
@[simp] theorem State.raise_tracker (b : BayId) (k : CondKind) (s : State) : (s.raise b k).tracker = s.tracker := by
  unfold State.raise; split
  · rw [State.latch_tracker]
  · rfl
@[simp] theorem State.raise_bays (b : BayId) (k : CondKind) (s : State) : (s.raise b k).bays = s.bays := by
  unfold State.raise; split
  · rw [State.latch_bays]
  · rfl
@[simp] theorem State.raise_capture (b : BayId) (k : CondKind) (s : State) : (s.raise b k).capture = s.capture := by
  unfold State.raise; split
  · rw [State.latch_capture]
  · rfl
@[simp] theorem State.raise_pending (b : BayId) (k : CondKind) (s : State) : (s.raise b k).pending = s.pending := by
  unfold State.raise; split
  · rw [State.latch_pending]
  · rfl
@[simp] theorem State.raise_events_routes (b : BayId) (k : CondKind) (s : State) : (s.raise b k).events.routes = s.events.routes := by
  unfold State.raise; split
  · rw [State.latch_events_routes]
  · rfl
@[simp] theorem State.raise_events_descriptors (b : BayId) (k : CondKind) (s : State) : (s.raise b k).events.descriptors = s.events.descriptors := by
  unfold State.raise; split
  · rw [State.latch_events_descriptors]
  · rfl
@[simp] theorem State.raise_events_limit (b : BayId) (k : CondKind) (s : State) : (s.raise b k).events.limit = s.events.limit := by
  unfold State.raise; split
  · rw [State.latch_events_limit]
  · rfl
@[simp] theorem State.raise_events_bayActive (b : BayId) (k : CondKind) (s : State) : (s.raise b k).events.bayActive = s.events.bayActive := by
  unfold State.raise; split
  · rw [State.latch_events_bayActive]
  · rfl
@[simp] theorem State.raise_events_msgActive (b : BayId) (k : CondKind) (s : State) : (s.raise b k).events.msgActive = s.events.msgActive := by
  unfold State.raise; split
  · rw [State.latch_events_msgActive]
  · rfl

theorem State.latch_threshold (it : Item) (d : DomainId) (s : State) :
    (s.latch it).events.delivery[d].threshold = s.events.delivery[d].threshold := by
  unfold State.latch; rw [State.reexamine_threshold]; simp only [EventUnit.setPending_delivery]

@[simp] theorem State.latch_threshold_at (it : Item) (i : Nat) (hi : i < 8) (s : State) :
    (s.latch it).events.delivery[i].threshold = s.events.delivery[i].threshold := State.latch_threshold it ⟨i, hi⟩ s

theorem State.latch_inService (it : Item) (d : DomainId) (s : State) :
    (s.latch it).events.delivery[d].inService = s.events.delivery[d].inService := by
  unfold State.latch; rw [State.reexamine_inService]; simp only [EventUnit.setPending_delivery]

@[simp] theorem State.latch_inService_at (it : Item) (i : Nat) (hi : i < 8) (s : State) :
    (s.latch it).events.delivery[i].inService = s.events.delivery[i].inService := State.latch_inService it ⟨i, hi⟩ s

/-- A latch sets the pending latch of its item and no other (R138, R139). -/
theorem State.latch_isPending (it it' : Item) (s : State) : (s.latch it).events.isPending it' = if it' = it then true else s.events.isPending it' := by
  unfold State.latch
  rw [← EventUnit.isPending_setPending]
  cases it' <;> simp [EventUnit.isPending]

@[simp] theorem State.latch_isActive (it it' : Item) (s : State) : (s.latch it).events.isActive it' = s.events.isActive it' := by
  cases it' <;> simp [EventUnit.isActive]

/-- A rise whose sense enable is off has no effect (R131). -/
theorem State.raise_off (b : BayId) (k : CondKind) (s : State) (h : s.bays[b].policy.sense.getLsbD k.index = false) : s.raise b k = s := by
  unfold State.raise; rw [h]; rfl

/-- A rise whose sense enable is on latches its source (R131, R138). -/
theorem State.raise_on (b : BayId) (k : CondKind) (s : State) (h : s.bays[b].policy.sense.getLsbD k.index = true) :
    s.raise b k = s.latch (.bay (baySource b k.index)) := by
  unfold State.raise; rw [h]; rfl

/-! ### What the shared operations keep of the event unit -/

/-- A re-examination keeps "deliverable means signalled". -/
theorem State.Signalled.reexamine {s : State} (h : s.Signalled) (d : DomainId) : (s.reexamine d).Signalled := fun d' it hd =>
  State.reexamine_signal d d' s (h d' it (by rwa [State.reexamine_deliverable] at hd))

/-- "Deliverable means signalled" holds after a re-examination of the domains where it may have been broken. -/
theorem State.signalled_of_reexamineAll {s : State} (ds : List DomainId)
    (h : ∀ d, d ∉ ds → ∀ it, s.deliverable d it = true → s.events.delivery[d].signal = true) : (s.reexamineAll ds).Signalled := by
  intro d it hd
  rw [State.reexamineAll_deliverable] at hd
  by_cases hm : d ∈ ds
  · exact State.reexamineAll_signalled ds d hm s it hd
  · exact State.reexamineAll_signal ds d s (h d hm it hd)

/-- "Deliverable means signalled" holds after a re-examination of the one domain where it may have been broken. -/
theorem State.signalled_of_reexamine {s : State} (d : DomainId)
    (h : ∀ d', d' ≠ d → ∀ it, s.deliverable d' it = true → s.events.delivery[d'].signal = true) : (s.reexamine d).Signalled :=
  State.signalled_of_reexamineAll (s := s) [d] fun d' hd => h d' (by simpa using hd)

/-- A latch keeps "deliverable means signalled" (R138, R145). -/
theorem State.Signalled.latch {s : State} (h : s.Signalled) (it : Item) : (s.latch it).Signalled := by
  unfold State.latch
  refine State.signalled_of_reexamine _ fun d hd it' hdel => ?_
  have hne : it' ≠ it := by
    rintro rfl
    simp only [State.deliverable, Bool.and_eq_true, beq_iff_eq] at hdel
    refine hd ?_
    rw [← hdel.1.1.1.1.1.1.2]
    cases it' <;> simp [EventUnit.routedTo]
  have hs : s.deliverable d it' = true := by
    rw [← hdel]
    exact (State.deliverable_congr s { s with events := s.events.setPending it true } d it'
      (by rw [EventUnit.isPending_setPending, if_neg hne]) (by simp) (by simp) (by simp) (by simp) rfl).symm
  simpa using h d it' hs

end Sys2Proof.Machine
end

