-- ==== Sys2Proof/Laws/Fields.lean ====
section
/-! SUPPORT. Words made of fields: the number a packed word stands for, from which the value of each field follows by arithmetic, and the vectors and byte strings the layouts use. -/

namespace Sys2Proof.Machine

/-- The sum of fields, each at its place. -/
def packSum : List (Nat × Nat) → Nat
  | [] => 0
  | (v, lo) :: fs => v * 2 ^ lo + packSum fs

theorem packSum_nil : packSum [] = 0 := rfl

theorem packSum_cons (v lo : Nat) (fs : List (Nat × Nat)) : packSum ((v, lo) :: fs) = v * 2 ^ lo + packSum fs := rfl

/-- The number of a packed word. With `packSum_cons` and `packSum_nil` a field of it is a matter of `omega`. -/
theorem packFields_toNat (fs : List (Nat × Nat)) : (packFields fs).toNat = packSum fs % 2 ^ 32 := by
  have h : fs.foldr (fun f acc => f.1 * 2 ^ f.2 + acc) 0 = packSum fs := by
    induction fs with
    | nil => rfl
    | cons f fs ih => obtain ⟨v, lo⟩ := f; rw [List.foldr_cons, ih]; rfl
  unfold packFields
  rw [BitVec.toNat_ofNat, h]

theorem bitVal_lt (b : Bool) : bitVal b < 2 := by cases b <;> decide

/-- A field is below the bound of its width. -/
theorem bits_lt (w : Word) (lo len : Nat) : bits w lo len < 2 ^ len := Nat.mod_lt _ (Nat.two_pow_pos _)

/-- A bit read back as a number. -/
theorem bitVal_beq_one (b : Bool) : (bitVal b == 1) = b := by cases b <;> decide

/-- An entry of a tabulated vector. -/
theorem tabulate_get {α : Type} (n : Nat) (f : Fin n → α) (i : Fin n) : (tabulate n f)[i] = f i := by
  simp [tabulate]

/-- Padding to `n` elements makes `n` elements. -/
theorem takePad_length {α : Type} (n : Nat) (pad : α) (l : List α) : (takePad n pad l).length = n := by
  simp [takePad]

/-- A word has the four bytes it is made of (R20). -/
theorem wordByte_wordOfBytes (a b c d : Byte) :
    wordByte (wordOfBytes a b c d) 0 = a ∧ wordByte (wordOfBytes a b c d) 1 = b
      ∧ wordByte (wordOfBytes a b c d) 2 = c ∧ wordByte (wordOfBytes a b c d) 3 = d := by
  have ha := a.isLt
  have hb := b.isLt
  have hc := c.isLt
  have hd := d.isLt
  refine ⟨?_, ?_, ?_, ?_⟩ <;>
  · apply BitVec.eq_of_toNat_eq
    simp only [wordByte, wordOfBytes, BitVec.toNat_ofNat]
    omega

end Sys2Proof.Machine
end

