-- ==== Sys2Proof/Laws/Kept.lean ====
section
/-! SUPPORT. What the tracker's shared operations can do to the rest of the part: they take errors to the capture, rises to the event unit, and entries into and out of the bay queues, and nothing else. A property of states that these moves keep, and that reads nothing of the tracker, is kept by every shared operation. -/

namespace Sys2Proof.Machine

/-- A fold keeps what its function keeps. -/
theorem foldl_kept {α β : Type} {P : β → Prop} {f : β → α → β} (h : ∀ s x, P s → P (f s x)) (l : List α) (s : β) (hs : P s) :
    P (l.foldl f s) := by
  induction l generalizing s with
  | nil => exact hs
  | cons x xs ih => exact ih _ (h s x hs)

/-- `P` reads nothing of the tracker and is kept by an offer, a latch, and an entry put into or taken out of a bay queue. -/
structure WorkKept (P : State → Prop) : Prop where
  tracker : ∀ s tr, P s → P { s with tracker := tr }
  offer : ∀ s o, P s → P (s.offer o)
  latch : ∀ s it, P s → P (s.latch it)
  enqueue : ∀ s b e, s.bays[b].takesRequests = true → P s → P (s.mapBay b (Bay.enqueue e))
  dequeue : ∀ s b e, P s → P (s.dequeue b e)

namespace WorkKept

variable {P : State → Prop}

theorem mapEntry (k : WorkKept P) (e : EntryId) (f : Entry → Entry) (s : State) (h : P s) : P (s.mapEntry e f) :=
  k.tracker s _ h

theorem makeReady (k : WorkKept P) (e : EntryId) (r : Response) (s : State) (h : P s) : P (s.makeReady e r) :=
  k.tracker s _ h

theorem goDone (k : WorkKept P) (e : EntryId) (st : Status) (s : State) (h : P s) : P (s.goDone e st) :=
  k.tracker s _ h

theorem readyDone (k : WorkKept P) (e : EntryId) (s : State) (h : P s) : P (s.readyDone e) :=
  k.tracker s _ h

theorem freeEntry (k : WorkKept P) (e : EntryId) (s : State) (h : P s) : P (s.freeEntry e) :=
  k.tracker s _ h

theorem syncDone (k : WorkKept P) (e : EntryId) (s : State) (h : P s) : P (s.syncDone e) :=
  k.tracker s _ h

theorem raise (k : WorkKept P) (b : BayId) (c : CondKind) (s : State) (h : P s) : P (s.raise b c) := by
  unfold State.raise; split
  · exact k.latch _ _ h
  · exact h

theorem postedFailure (k : WorkKept P) (x : Entry) (st : Status) (s : State) (h : P s) : P (s.postedFailure x st) := by
  unfold State.postedFailure
  have h2 := k.offer _ (x.failureOffer st) (k.tracker s { s.tracker with postedFault := s.tracker.postedFault.set x.domain true } h)
  cases x.xlat with
  | none => exact h2
  | some t => exact k.raise _ _ _ h2

theorem endPosted (k : WorkKept P) (e : EntryId) (st : Status) (s : State) (h : P s) : P (s.endPosted e st) := by
  unfold State.endPosted
  have h1 := k.mapEntry e (fun y => { y with state := .done, status := st }) s h
  have h2 : P (if st == .ok then s.mapEntry e (fun y => { y with state := .done, status := st })
      else (s.mapEntry e (fun y => { y with state := .done, status := st })).postedFailure s.tracker.entries[e] st) := by
    split
    · exact h1
    · exact k.postedFailure _ _ _ h1
  dsimp only
  split
  · exact h2
  · exact k.freeEntry _ _ h2

theorem stopEntry (k : WorkKept P) (e : EntryId) (st : Status) (s : State) (h : P s) : P (s.stopEntry e st) := by
  unfold State.stopEntry
  split
  · exact k.endPosted e st s h
  · split
    · exact k.freeEntry e s h
    · exact k.goDone e st s h

theorem readyIfDone (k : WorkKept P) (e : EntryId) (s : State) (h : P s) : P (s.readyIfDone e) := by
  unfold State.readyIfDone
  split
  · exact k.readyDone e s h
  · exact h

theorem place (k : WorkKept P) (e : EntryId) (b : BayId) (s : State) (ht : s.bays[b].takesRequests = true) (h : P s) : P (s.place e b) :=
  k.enqueue _ b e ht (k.mapEntry e (fun y => { y with state := .queued }) s h)

theorem release (k : WorkKept P) (e : EntryId) (x : Translation) (s : State) (h : P s) : P (s.release e x) := by
  unfold State.release
  split
  · next hc => exact k.place e x.bay s (by simp only [Bool.and_eq_true] at hc; exact hc.2) h
  · split
    · exact k.endPosted e _ s h
    · exact k.goDone e _ s h

theorem releaseIfReady (k : WorkKept P) (e : EntryId) (s : State) (h : P s) : P (s.releaseIfReady e) := by
  unfold State.releaseIfReady
  split
  · split
    · exact k.release e _ s h
    · exact h
  · exact h

theorem examineHolds (k : WorkKept P) (ds : List DomainId) (s : State) (h : P s) : P (s.examineHolds ds) := by
  unfold State.examineHolds
  refine foldl_kept (fun s e hs => ?_) _ s h
  split
  · exact k.releaseIfReady e s hs
  · exact hs

theorem examineSyncs (k : WorkKept P) (ds : List DomainId) (s : State) (h : P s) : P (s.examineSyncs ds) := by
  unfold State.examineSyncs
  refine foldl_kept (fun s e hs => ?_) _ s h
  split
  · exact k.syncDone e s hs
  · exact hs

theorem letGo (k : WorkKept P) (holds syncs : List DomainId) (s : State) (h : P s) : P (s.letGo holds syncs) :=
  k.examineSyncs _ _ (k.examineHolds _ _ h)

theorem readyThese (k : WorkKept P) (es : List EntryId) (s : State) (h : P s) : P (s.readyThese es) :=
  foldl_kept (fun s e hs => k.readyIfDone e s hs) es s h

theorem examine (k : WorkKept P) (holds syncs : List DomainId) (s : State) (h : P s) : P (s.examine holds syncs) :=
  k.readyThese _ _ (k.letGo _ _ _ h)

theorem endEntry (k : WorkKept P) (b : BayId) (e : EntryId) (st : Status) (s : State) (h : P s) : P (s.endEntry b e st) :=
  k.examine _ _ _ (k.readyIfDone e _ (k.stopEntry e st _ (k.dequeue s b e h)))

theorem markStale (k : WorkKept P) (b : BayId) (s : State) (h : P s) : P (s.markStale b) := by
  unfold State.markStale
  refine foldl_kept (fun s e hs => ?_) _ s h
  split
  · exact k.mapEntry e _ s hs
  · exact hs

/-- An abort keeps `P` where the bay's own part of it does. -/
theorem abortBay (k : WorkKept P) (b : BayId) (f : Bay → Bay) (st : Status) (s : State) (h : P (s.mapBay b f)) : P (s.abortBay b f st) :=
  k.readyThese _ _ (k.letGo _ _ _ (k.markStale b _ (foldl_kept (fun _ e hs => k.stopEntry e st _ hs) _ _ h)))

theorem removal (k : WorkKept P) (b : BayId) (s : State) (h : P (s.mapBay b Bay.remove)) : P (s.removal b) :=
  k.raise _ _ _ (k.abortBay b _ _ s h)

theorem resetBay (k : WorkKept P) (b : BayId) (s : State) (h : P (s.mapBay b Bay.restart)) : P (s.resetBay b) :=
  k.abortBay b _ _ s h

theorem faultBay (k : WorkKept P) (b : BayId) (c : FaultCause) (s : State) (h : P (s.mapBay b (Bay.fault c))) : P (s.faultBay b c) :=
  k.raise _ _ _ (k.offer _ _ (k.abortBay b _ _ s h))

/-- A request's end at its admission keeps `P`. -/
theorem finish (k : WorkKept P) (t : Taken) (st : Status) (fill : Entry → Entry) (s : State) (h : P s) : P (s.finish t st fill) :=
  k.examine _ _ _ (k.readyDone _ _ (k.goDone _ _ _ (k.mapEntry _ fill s h)))

theorem finishWith (k : WorkKept P) (t : Taken) (st : Status) (s : State) (h : P s) : P (s.finishWith t st) :=
  k.finish t st id s h

/-- An admitted data request keeps `P`, its bay taking requests. -/
theorem admitData (k : WorkKept P) (t : Taken) (i : Fin 32) (s : State)
    (ht : s.bays[s.tables.apertures[i].bay].takesRequests = true) (h : P s) : P (s.admitData t i) := by
  have h1 : P (s.writeTranslation t i) := k.tracker s _ h
  have h2 : P ((s.writeTranslation t i).readyPosted t.entry) := by
    unfold State.readyPosted; split
    · exact k.makeReady _ _ _ h1
    · exact h1
  have hb : ((s.writeTranslation t i).readyPosted t.entry).bays = s.bays := by
    unfold State.readyPosted; split <;> rfl
  unfold State.admitData State.placeAdmitted
  split
  · exact k.mapEntry _ _ _ h2
  · refine k.place _ _ _ ?_ h2
    rw [hb]; exact ht

end WorkKept

/-- Where no check fails, each of them holds. -/
theorem holds_of_firstFailure {l : List (Bool × Status)} (h : firstFailure l = none) : ∀ c ∈ l, c.1 = true := by
  induction l with
  | nil => nofun
  | cons c cs ih =>
    unfold firstFailure at h
    split at h
    · next hc => exact List.forall_mem_cons.2 ⟨hc, ih h⟩
    · cases h

/-- The checks of an admitted data request include that its bay takes requests (Table 2-4, step 10). -/
theorem State.checkData_takes (s : State) (r : Request) (i : Fin 32) (h : s.checkData r = .admitted i) :
    s.bays[s.tables.apertures[i].bay].takesRequests = true := by
  unfold State.checkData at h
  split at h
  · cases h
  · split at h
    · cases h
    · next j hj =>
      split at h
      · cases h
      · next hf =>
        cases h
        exact holds_of_firstFailure hf (s.bays[s.tables.apertures[i].bay].takesRequests, .bayNotReady) (by simp [State.dataChecks])

/-- The admission of a data request keeps `P`. -/
theorem WorkKept.admission {P : State → Prop} (k : WorkKept P) (t : Taken) (s : State) (h : P s) : P (s.admission t) := by
  unfold State.admission
  split
  · exact k.finishWith t _ s h
  · next i hi => exact k.admitData t i s (s.checkData_takes t.request i hi) h

end Sys2Proof.Machine
end

