-- ==== Sys2Proof/WellFormed.lean ====
section
/-! DEFINITION. Which commands are well formed. Domain, bay and lane numbers are in range by their types; the one check left is the length of an identity read. -/

namespace Sys2Proof

/-- The data phase of an identity read has 32 bytes (R110). -/
def Instr.wf : Instr → Bool
  | .identityReadEnd _ bytes => bytes.length == 32
  | .powerOnReset => true
  | .linkGained => true
  | .linkLost => true
  | .packetReceived _ => true
  | .transmitChoice => true
  | .read => true
  | .write => true
  | .blockRead => true
  | .blockWrite => true
  | .fetchAdd => true
  | .sync => true
  | .claim => true
  | .complete => true
  | .threshold => true
  | .message => true
  | .clearService => true
  | .ctlRead => true
  | .ctlWriteAperture => true
  | .ctlWriteDomain => true
  | .ctlWriteGrant => true
  | .ctlWriteRoute => true
  | .ctlWriteDescriptor => true
  | .ctlWriteDescLimit => true
  | .ctlWriteBayPolicy => true
  | .ctlWriteOtherGroup => true
  | .powerOn => true
  | .powerOff => true
  | .auxOn => true
  | .auxOff => true
  | .reset => true
  | .retry => true
  | .parkLight => true
  | .parkDeep => true
  | .wake => true
  | .captureClear => true
  | .bayActionUnknown => true
  | .bayDecisionPoint _ => true
  | .exchangeAnswer _ _ _ => true
  | .exchangeTimeout _ => true
  | .dwellExpiry _ _ => true
  | .recoveryExpiry _ _ => true
  | .pollTimerExpiry _ => true
  | .wakeTimerExpiry _ => true
  | .presenceContactChange _ _ _ => true
  | .debounceExpiry _ => true
  | .railGood _ _ => true
  | .railTimerExpiry _ => true
  | .holdTimerExpiry _ => true
  | .moduleReady _ _ => true
  | .readyTimerExpiry _ => true
  | .idNoAnswer _ => true

end Sys2Proof
end

