-- ==== Sys2Proof/Laws/PerInstr.lean ====
section
/-! SUPPORT. The family WellFormedness: which commands the check of Sys2Proof/WellFormed.lean passes. -/

/-- A command that is no identity read is well formed without a condition. -/
theorem Sys2Proof.Laws.wellFormed_of_noIdentityRead {i : Sys2Proof.Instr} (hw : i.wf = true) (hn : ∀ b bytes, i ≠ .identityReadEnd b bytes) :
    i.wf = true ↔ ∀ b bytes, i = .identityReadEnd b bytes → bytes.length = 32 :=
  ⟨fun _ b bytes h => absurd h (hn b bytes), fun _ => hw⟩

namespace Sys2Proof.Laws.WellFormedness

/-- Every command is well formed but an identity read whose data phase is not 32 bytes long (R110). -/
def Statement (i : Instr) : Prop := i.wf = true ↔ ∀ b bytes, i = .identityReadEnd b bytes → bytes.length = 32

theorem powerOnReset : Statement .powerOnReset := wellFormed_of_noIdentityRead rfl nofun
theorem linkGained : Statement .linkGained := wellFormed_of_noIdentityRead rfl nofun
theorem linkLost : Statement .linkLost := wellFormed_of_noIdentityRead rfl nofun
theorem packetReceived (words : List Word) : Statement (.packetReceived words) := wellFormed_of_noIdentityRead rfl nofun
theorem transmitChoice : Statement .transmitChoice := wellFormed_of_noIdentityRead rfl nofun
theorem read : Statement .read := wellFormed_of_noIdentityRead rfl nofun
theorem write : Statement .write := wellFormed_of_noIdentityRead rfl nofun
theorem blockRead : Statement .blockRead := wellFormed_of_noIdentityRead rfl nofun
theorem blockWrite : Statement .blockWrite := wellFormed_of_noIdentityRead rfl nofun
theorem fetchAdd : Statement .fetchAdd := wellFormed_of_noIdentityRead rfl nofun
theorem sync : Statement .sync := wellFormed_of_noIdentityRead rfl nofun
theorem claim : Statement .claim := wellFormed_of_noIdentityRead rfl nofun
theorem complete : Statement .complete := wellFormed_of_noIdentityRead rfl nofun
theorem threshold : Statement .threshold := wellFormed_of_noIdentityRead rfl nofun
theorem message : Statement .message := wellFormed_of_noIdentityRead rfl nofun
theorem clearService : Statement .clearService := wellFormed_of_noIdentityRead rfl nofun
theorem ctlRead : Statement .ctlRead := wellFormed_of_noIdentityRead rfl nofun
theorem ctlWriteAperture : Statement .ctlWriteAperture := wellFormed_of_noIdentityRead rfl nofun
theorem ctlWriteDomain : Statement .ctlWriteDomain := wellFormed_of_noIdentityRead rfl nofun
theorem ctlWriteGrant : Statement .ctlWriteGrant := wellFormed_of_noIdentityRead rfl nofun
theorem ctlWriteRoute : Statement .ctlWriteRoute := wellFormed_of_noIdentityRead rfl nofun
theorem ctlWriteDescriptor : Statement .ctlWriteDescriptor := wellFormed_of_noIdentityRead rfl nofun
theorem ctlWriteDescLimit : Statement .ctlWriteDescLimit := wellFormed_of_noIdentityRead rfl nofun
theorem ctlWriteBayPolicy : Statement .ctlWriteBayPolicy := wellFormed_of_noIdentityRead rfl nofun
theorem ctlWriteOtherGroup : Statement .ctlWriteOtherGroup := wellFormed_of_noIdentityRead rfl nofun
theorem powerOn : Statement .powerOn := wellFormed_of_noIdentityRead rfl nofun
theorem powerOff : Statement .powerOff := wellFormed_of_noIdentityRead rfl nofun
theorem auxOn : Statement .auxOn := wellFormed_of_noIdentityRead rfl nofun
theorem auxOff : Statement .auxOff := wellFormed_of_noIdentityRead rfl nofun
theorem reset : Statement .reset := wellFormed_of_noIdentityRead rfl nofun
theorem retry : Statement .retry := wellFormed_of_noIdentityRead rfl nofun
theorem parkLight : Statement .parkLight := wellFormed_of_noIdentityRead rfl nofun
theorem parkDeep : Statement .parkDeep := wellFormed_of_noIdentityRead rfl nofun
theorem wake : Statement .wake := wellFormed_of_noIdentityRead rfl nofun
theorem captureClear : Statement .captureClear := wellFormed_of_noIdentityRead rfl nofun
theorem bayActionUnknown : Statement .bayActionUnknown := wellFormed_of_noIdentityRead rfl nofun
theorem bayDecisionPoint (bay : BayId) : Statement (.bayDecisionPoint bay) := wellFormed_of_noIdentityRead rfl nofun
theorem exchangeAnswer (bay : BayId) (late : Bool) (answer : Answer) : Statement (.exchangeAnswer bay late answer) := wellFormed_of_noIdentityRead rfl nofun
theorem exchangeTimeout (bay : BayId) : Statement (.exchangeTimeout bay) := wellFormed_of_noIdentityRead rfl nofun
theorem dwellExpiry (bay : BayId) (lane : LaneId) : Statement (.dwellExpiry bay lane) := wellFormed_of_noIdentityRead rfl nofun
theorem recoveryExpiry (bay : BayId) (lane : LaneId) : Statement (.recoveryExpiry bay lane) := wellFormed_of_noIdentityRead rfl nofun
theorem pollTimerExpiry (bay : BayId) : Statement (.pollTimerExpiry bay) := wellFormed_of_noIdentityRead rfl nofun
theorem wakeTimerExpiry (bay : BayId) : Statement (.wakeTimerExpiry bay) := wellFormed_of_noIdentityRead rfl nofun
theorem presenceContactChange (bay : BayId) (contact : Contact) (made : Bool) : Statement (.presenceContactChange bay contact made) := wellFormed_of_noIdentityRead rfl nofun
theorem debounceExpiry (bay : BayId) : Statement (.debounceExpiry bay) := wellFormed_of_noIdentityRead rfl nofun
theorem railGood (bay : BayId) (level : Bool) : Statement (.railGood bay level) := wellFormed_of_noIdentityRead rfl nofun
theorem railTimerExpiry (bay : BayId) : Statement (.railTimerExpiry bay) := wellFormed_of_noIdentityRead rfl nofun
theorem holdTimerExpiry (bay : BayId) : Statement (.holdTimerExpiry bay) := wellFormed_of_noIdentityRead rfl nofun
theorem moduleReady (bay : BayId) (level : Bool) : Statement (.moduleReady bay level) := wellFormed_of_noIdentityRead rfl nofun
theorem readyTimerExpiry (bay : BayId) : Statement (.readyTimerExpiry bay) := wellFormed_of_noIdentityRead rfl nofun
theorem idNoAnswer (slot : IdSlot) : Statement (.idNoAnswer slot) := wellFormed_of_noIdentityRead rfl nofun
theorem identityReadEnd (bay : BayId) (bytes : List Byte) : Statement (.identityReadEnd bay bytes) := by
  unfold Statement Instr.wf
  rw [beq_iff_eq]
  constructor
  · rintro h _ _ ⟨⟩; exact h
  · intro h; exact h bay bytes rfl

end Sys2Proof.Laws.WellFormedness
end

