-- ==== Sys2Proof/Laws/Tracker.lean ====
section
/-! SUPPORT. The tracker's examinations, field by field: what they leave of the other blocks, of the order taken, and of the entries they do not touch; the end of a request at its admission; and the orders in which entries join a bay queue and the responses of an abort become ready. -/

namespace Sys2Proof.Machine

/-- An examination of no hold list changes nothing. -/
@[simp] theorem State.examineHolds_nil (s : State) : s.examineHolds [] = s := by
  unfold State.examineHolds
  simp only [List.contains_nil, Bool.false_eq_true, if_false]
  induction s.tracker.taken with
  | nil => rfl
  | cons x xs ih => exact ih

/-! ### The blocks that SYNCs and responses do not reach -/

@[simp] theorem State.examineSyncs_uplink (ds : List DomainId) (s : State) : (s.examineSyncs ds).uplink = s.uplink := by
  unfold State.examineSyncs
  refine foldl_kept (P := fun t => t.uplink = s.uplink) (fun t e ht => ?_) _ s rfl
  split <;> exact ht

@[simp] theorem State.readyIfDone_uplink (e : EntryId) (s : State) : (s.readyIfDone e).uplink = s.uplink := by
  unfold State.readyIfDone
  split <;> rfl

@[simp] theorem State.readyThese_uplink (es : List EntryId) (s : State) : (s.readyThese es).uplink = s.uplink :=
  foldl_kept (P := fun t => t.uplink = s.uplink) (fun t e ht => (State.readyIfDone_uplink e t).trans ht) es s rfl

@[simp] theorem State.examine_nil_uplink (ds : List DomainId) (s : State) : (s.examine [] ds).uplink = s.uplink := by
  unfold State.examine State.readyAll State.letGo; rw [State.readyThese_uplink, State.examineSyncs_uplink, State.examineHolds_nil]

@[simp] theorem State.finish_uplink (t : Taken) (st : Status) (fill : Entry → Entry) (s : State) : (s.finish t st fill).uplink = s.uplink := by
  unfold State.finish; rw [State.examine_nil_uplink]; rfl

@[simp] theorem State.finishWith_uplink (t : Taken) (st : Status) (s : State) : (s.finishWith t st).uplink = s.uplink := State.finish_uplink t st id s

@[simp] theorem State.examineSyncs_tables (ds : List DomainId) (s : State) : (s.examineSyncs ds).tables = s.tables := by
  unfold State.examineSyncs
  refine foldl_kept (P := fun t => t.tables = s.tables) (fun t e ht => ?_) _ s rfl
  split <;> exact ht

@[simp] theorem State.readyIfDone_tables (e : EntryId) (s : State) : (s.readyIfDone e).tables = s.tables := by
  unfold State.readyIfDone
  split <;> rfl

@[simp] theorem State.readyThese_tables (es : List EntryId) (s : State) : (s.readyThese es).tables = s.tables :=
  foldl_kept (P := fun t => t.tables = s.tables) (fun t e ht => (State.readyIfDone_tables e t).trans ht) es s rfl

@[simp] theorem State.examine_nil_tables (ds : List DomainId) (s : State) : (s.examine [] ds).tables = s.tables := by
  unfold State.examine State.readyAll State.letGo; rw [State.readyThese_tables, State.examineSyncs_tables, State.examineHolds_nil]

@[simp] theorem State.finish_tables (t : Taken) (st : Status) (fill : Entry → Entry) (s : State) : (s.finish t st fill).tables = s.tables := by
  unfold State.finish; rw [State.examine_nil_tables]; rfl

@[simp] theorem State.finishWith_tables (t : Taken) (st : Status) (s : State) : (s.finishWith t st).tables = s.tables := State.finish_tables t st id s

@[simp] theorem State.examineSyncs_bays (ds : List DomainId) (s : State) : (s.examineSyncs ds).bays = s.bays := by
  unfold State.examineSyncs
  refine foldl_kept (P := fun t => t.bays = s.bays) (fun t e ht => ?_) _ s rfl
  split <;> exact ht

@[simp] theorem State.readyIfDone_bays (e : EntryId) (s : State) : (s.readyIfDone e).bays = s.bays := by
  unfold State.readyIfDone
  split <;> rfl

@[simp] theorem State.readyThese_bays (es : List EntryId) (s : State) : (s.readyThese es).bays = s.bays :=
  foldl_kept (P := fun t => t.bays = s.bays) (fun t e ht => (State.readyIfDone_bays e t).trans ht) es s rfl

@[simp] theorem State.examine_nil_bays (ds : List DomainId) (s : State) : (s.examine [] ds).bays = s.bays := by
  unfold State.examine State.readyAll State.letGo; rw [State.readyThese_bays, State.examineSyncs_bays, State.examineHolds_nil]

@[simp] theorem State.finish_bays (t : Taken) (st : Status) (fill : Entry → Entry) (s : State) : (s.finish t st fill).bays = s.bays := by
  unfold State.finish; rw [State.examine_nil_bays]; rfl

@[simp] theorem State.finishWith_bays (t : Taken) (st : Status) (s : State) : (s.finishWith t st).bays = s.bays := State.finish_bays t st id s

@[simp] theorem State.examineSyncs_events (ds : List DomainId) (s : State) : (s.examineSyncs ds).events = s.events := by
  unfold State.examineSyncs
  refine foldl_kept (P := fun t => t.events = s.events) (fun t e ht => ?_) _ s rfl
  split <;> exact ht

@[simp] theorem State.readyIfDone_events (e : EntryId) (s : State) : (s.readyIfDone e).events = s.events := by
  unfold State.readyIfDone
  split <;> rfl

@[simp] theorem State.readyThese_events (es : List EntryId) (s : State) : (s.readyThese es).events = s.events :=
  foldl_kept (P := fun t => t.events = s.events) (fun t e ht => (State.readyIfDone_events e t).trans ht) es s rfl

@[simp] theorem State.examine_nil_events (ds : List DomainId) (s : State) : (s.examine [] ds).events = s.events := by
  unfold State.examine State.readyAll State.letGo; rw [State.readyThese_events, State.examineSyncs_events, State.examineHolds_nil]

@[simp] theorem State.finish_events (t : Taken) (st : Status) (fill : Entry → Entry) (s : State) : (s.finish t st fill).events = s.events := by
  unfold State.finish; rw [State.examine_nil_events]; rfl

@[simp] theorem State.finishWith_events (t : Taken) (st : Status) (s : State) : (s.finishWith t st).events = s.events := State.finish_events t st id s

@[simp] theorem State.examineSyncs_capture (ds : List DomainId) (s : State) : (s.examineSyncs ds).capture = s.capture := by
  unfold State.examineSyncs
  refine foldl_kept (P := fun t => t.capture = s.capture) (fun t e ht => ?_) _ s rfl
  split <;> exact ht

@[simp] theorem State.readyIfDone_capture (e : EntryId) (s : State) : (s.readyIfDone e).capture = s.capture := by
  unfold State.readyIfDone
  split <;> rfl

@[simp] theorem State.readyThese_capture (es : List EntryId) (s : State) : (s.readyThese es).capture = s.capture :=
  foldl_kept (P := fun t => t.capture = s.capture) (fun t e ht => (State.readyIfDone_capture e t).trans ht) es s rfl

@[simp] theorem State.examine_nil_capture (ds : List DomainId) (s : State) : (s.examine [] ds).capture = s.capture := by
  unfold State.examine State.readyAll State.letGo; rw [State.readyThese_capture, State.examineSyncs_capture, State.examineHolds_nil]

@[simp] theorem State.finish_capture (t : Taken) (st : Status) (fill : Entry → Entry) (s : State) : (s.finish t st fill).capture = s.capture := by
  unfold State.finish; rw [State.examine_nil_capture]; rfl

@[simp] theorem State.finishWith_capture (t : Taken) (st : Status) (s : State) : (s.finishWith t st).capture = s.capture := State.finish_capture t st id s

@[simp] theorem State.examineSyncs_pending (ds : List DomainId) (s : State) : (s.examineSyncs ds).pending = s.pending := by
  unfold State.examineSyncs
  refine foldl_kept (P := fun t => t.pending = s.pending) (fun t e ht => ?_) _ s rfl
  split <;> exact ht

@[simp] theorem State.readyIfDone_pending (e : EntryId) (s : State) : (s.readyIfDone e).pending = s.pending := by
  unfold State.readyIfDone
  split <;> rfl

@[simp] theorem State.readyThese_pending (es : List EntryId) (s : State) : (s.readyThese es).pending = s.pending :=
  foldl_kept (P := fun t => t.pending = s.pending) (fun t e ht => (State.readyIfDone_pending e t).trans ht) es s rfl

@[simp] theorem State.examine_nil_pending (ds : List DomainId) (s : State) : (s.examine [] ds).pending = s.pending := by
  unfold State.examine State.readyAll State.letGo; rw [State.readyThese_pending, State.examineSyncs_pending, State.examineHolds_nil]

@[simp] theorem State.finish_pending (t : Taken) (st : Status) (fill : Entry → Entry) (s : State) : (s.finish t st fill).pending = s.pending := by
  unfold State.finish; rw [State.examine_nil_pending]; rfl

@[simp] theorem State.finishWith_pending (t : Taken) (st : Status) (s : State) : (s.finishWith t st).pending = s.pending := State.finish_pending t st id s

@[simp] theorem State.examineSyncs_tracker_taken (ds : List DomainId) (s : State) : (s.examineSyncs ds).tracker.taken = s.tracker.taken := by
  unfold State.examineSyncs
  refine foldl_kept (P := fun t => t.tracker.taken = s.tracker.taken) (fun t e ht => ?_) _ s rfl
  split <;> exact ht

@[simp] theorem State.readyIfDone_tracker_taken (e : EntryId) (s : State) : (s.readyIfDone e).tracker.taken = s.tracker.taken := by
  unfold State.readyIfDone
  split <;> rfl

@[simp] theorem State.readyThese_tracker_taken (es : List EntryId) (s : State) : (s.readyThese es).tracker.taken = s.tracker.taken :=
  foldl_kept (P := fun t => t.tracker.taken = s.tracker.taken) (fun t e ht => (State.readyIfDone_tracker_taken e t).trans ht) es s rfl

@[simp] theorem State.examine_nil_tracker_taken (ds : List DomainId) (s : State) : (s.examine [] ds).tracker.taken = s.tracker.taken := by
  unfold State.examine State.readyAll State.letGo; rw [State.readyThese_tracker_taken, State.examineSyncs_tracker_taken, State.examineHolds_nil]

@[simp] theorem State.finish_tracker_taken (t : Taken) (st : Status) (fill : Entry → Entry) (s : State) : (s.finish t st fill).tracker.taken = s.tracker.taken := by
  unfold State.finish; rw [State.examine_nil_tracker_taken]; rfl

@[simp] theorem State.finishWith_tracker_taken (t : Taken) (st : Status) (s : State) : (s.finishWith t st).tracker.taken = s.tracker.taken := State.finish_tracker_taken t st id s

/-! ### The entries that SYNCs and responses do not reach -/

/-- A SYNC's completion reaches no entry but itself. -/
theorem State.syncDone_other {e e' : EntryId} (h : e' ≠ e) (s : State) : (s.syncDone e).tracker.entries[e'] = s.tracker.entries[e'] :=
  State.mapEntry_other (s := s) h fun y => { y with state := .done, status := .ok, flags := { y.flags with postedFault := s.tracker.postedFault[s.tracker.entries[e].domain] } }

/-- An examination of the SYNCs reaches only WAITING entries of its domains (R56). -/
theorem State.examineSyncs_keeps (ds : List DomainId) (s : State) (e : EntryId)
    (h : s.tracker.entries[e].state = .waiting → ds.contains s.tracker.entries[e].domain = false) :
    (s.examineSyncs ds).tracker.entries[e] = s.tracker.entries[e] := by
  unfold State.examineSyncs
  refine foldl_kept (P := fun t => t.tracker.entries[e] = s.tracker.entries[e]) (fun t x ht => ?_) _ s rfl
  split
  · next hc =>
    by_cases hx : e = x
    · subst hx
      simp only [Bool.and_eq_true, beq_iff_eq] at hc
      rw [ht] at hc
      exact absurd hc.1.1 (by rw [h hc.1.2]; decide)
    · rw [State.syncDone_other hx]; exact ht
  · exact ht

/-- An examination of the SYNCs reaches the posted-fault flags of its domains alone (R57). -/
theorem State.examineSyncs_postedFault (ds : List DomainId) (s : State) (d : DomainId) (h : ds.contains d = false) :
    (s.examineSyncs ds).tracker.postedFault[d] = s.tracker.postedFault[d] := by
  unfold State.examineSyncs
  refine foldl_kept (P := fun t => t.tracker.postedFault[d] = s.tracker.postedFault[d]) (fun t x ht => ?_) _ s rfl
  split
  · next hc =>
    simp only [Bool.and_eq_true] at hc
    have hne : t.tracker.entries[x].domain.val ≠ d.val := by
      intro hv
      rw [Fin.ext hv, h] at hc
      exact absurd hc.1.1 (by decide)
    rw [← ht]
    exact Vector.getElem_set_ne t.tracker.entries[x].domain.isLt d.isLt hne
  · exact ht

@[simp] theorem State.readyIfDone_postedFault (e : EntryId) (s : State) : (s.readyIfDone e).tracker.postedFault = s.tracker.postedFault := by
  unfold State.readyIfDone
  split <;> rfl

@[simp] theorem State.readyThese_postedFault (es : List EntryId) (s : State) : (s.readyThese es).tracker.postedFault = s.tracker.postedFault :=
  foldl_kept (P := fun t => t.tracker.postedFault = s.tracker.postedFault) (fun t e ht => (State.readyIfDone_postedFault e t).trans ht) es s rfl

/-- An entry whose response is not to be made ready keeps its record (R60). -/
theorem State.readyIfDone_settled (s : State) (e : EntryId) (h : s.tracker.entries[e].unanswered = false) : s.readyIfDone e = s := by
  unfold State.readyIfDone
  rw [h]
  rfl

/-- A non-posted DONE entry without its response joins the response order with it (R60). -/
theorem State.readyIfDone_unanswered (s : State) (e : EntryId) (h : s.tracker.entries[e].unanswered = true) : s.readyIfDone e = s.readyDone e := by
  unfold State.readyIfDone
  rw [h]
  rfl

/-- Making responses ready reaches no entry that is answered, and none that is not DONE (R60). -/
theorem State.readyThese_keeps (es : List EntryId) (s : State) (e : EntryId) (h : s.tracker.entries[e].unanswered = false) :
    (s.readyThese es).tracker.entries[e] = s.tracker.entries[e] := by
  refine foldl_kept (P := fun t => t.tracker.entries[e] = s.tracker.entries[e]) (fun t x ht => ?_) es s rfl
  show (t.readyIfDone x).tracker.entries[e] = _
  cases hx : t.tracker.entries[x].unanswered with
  | false => rw [State.readyIfDone_settled t x hx]; exact ht
  | true =>
    have hne : e ≠ x := by
      rintro rfl
      rw [ht, h] at hx
      cases hx
    rw [State.readyIfDone_unanswered t x hx]
    unfold State.readyDone
    rw [State.makeReady_other hne]
    exact ht

/-- Making responses ready takes nothing from the response order: what it adds joins the tail (R60). -/
theorem State.readyThese_order (es : List EntryId) (s : State) : ∃ later, (s.readyThese es).tracker.order = s.tracker.order ++ later := by
  refine foldl_kept (P := fun t => ∃ later, t.tracker.order = s.tracker.order ++ later) (fun t x ht => ?_) es s ⟨[], by simp⟩
  show ∃ later, (t.readyIfDone x).tracker.order = _
  cases hx : t.tracker.entries[x].unanswered with
  | false => rw [State.readyIfDone_settled t x hx]; exact ht
  | true =>
    obtain ⟨l, hl⟩ := ht
    refine ⟨l ++ [x], ?_⟩
    rw [State.readyIfDone_unanswered t x hx]
    unfold State.readyDone
    rw [State.makeReady_order, hl, List.append_assoc]

/-- The entries still to be answered are the non-posted DONE ones without a response (R60). -/
theorem Entry.unanswered_eq_false (x : Entry) (h : x.state = .done → x.posted = false → x.response.isSome = true) : x.unanswered = false := by
  unfold Entry.unanswered
  cases hs : (x.state == .done && !x.posted) with
  | false => rfl
  | true =>
    simp only [Bool.and_eq_true, beq_iff_eq, Bool.not_eq_true'] at hs
    have hr := h hs.1 hs.2
    cases hx : x.response with
    | none => rw [hx] at hr; cases hr
    | some r => rfl

/-- The examination of SYNCs takes nothing from the response order: what it adds joins the tail. -/
theorem State.examine_nil_order (ds : List DomainId) (s : State) : ∃ later, (s.examine [] ds).tracker.order = s.tracker.order ++ later := by
  unfold State.examine State.readyAll State.letGo
  rw [State.examineHolds_nil]
  have h1 : (s.examineSyncs ds).tracker.order = s.tracker.order := by
    unfold State.examineSyncs
    refine foldl_kept (P := fun t => t.tracker.order = s.tracker.order) (fun t e ht => ?_) _ s rfl
    split <;> exact ht
  rw [← h1]
  exact State.readyThese_order _ _

/-- An examination without hold lists reaches neither the entries that are not WAITING in its domains and not DONE, nor the DONE ones whose responses are settled. -/
theorem State.examine_nil_keeps (ds : List DomainId) (s : State) (e : EntryId) (hw : s.tracker.entries[e].state = .waiting → ds.contains s.tracker.entries[e].domain = false)
    (hd : s.tracker.entries[e].state = .done → s.tracker.entries[e].posted = false → s.tracker.entries[e].response.isSome = true) :
    (s.examine [] ds).tracker.entries[e] = s.tracker.entries[e] := by
  have h1 := State.examineSyncs_keeps ds s e hw
  unfold State.examine State.readyAll State.letGo
  rw [State.examineHolds_nil, State.readyThese_keeps _ _ e (by rw [h1]; exact Entry.unanswered_eq_false _ hd), h1]

/-- A request's entry after its end at admission: DONE with its status, what `fill` put in place, and the response assembled from it (R46). -/
theorem State.finish_entry (t : Taken) (st : Status) (fill : Entry → Entry) (s : State) :
    (s.finish t st fill).tracker.entries[t.entry] =
      { fill s.tracker.entries[t.entry] with
        state := .done, status := st
        response := some (Entry.assemble { fill s.tracker.entries[t.entry] with state := .done, status := st })
        seq := some s.tracker.nextSeq } := by
  unfold State.finish
  have h : (((s.mapEntry t.entry fill).goDone t.entry st).readyDone t.entry).tracker.entries[t.entry] =
      { fill s.tracker.entries[t.entry] with
        state := .done, status := st
        response := some (Entry.assemble { fill s.tracker.entries[t.entry] with state := .done, status := st })
        seq := some s.tracker.nextSeq } := by
    unfold State.readyDone
    rw [State.makeReady_same]
    have hg : ((s.mapEntry t.entry fill).goDone t.entry st).tracker.entries[t.entry] =
        { fill s.tracker.entries[t.entry] with state := .done, status := st } := by
      unfold State.goDone; rw [State.mapEntry_same, State.mapEntry_same]
    rw [hg]
    rfl
  rw [State.examine_nil_keeps _ _ _ (by rw [h]; simp) (by rw [h]; simp), h]

/-- A request's end at admission reaches no other entry but WAITING ones and unanswered DONE ones. -/
theorem State.finish_other (t : Taken) (st : Status) (fill : Entry → Entry) (s : State) (e : EntryId) (he : e ≠ t.entry)
    (hw : s.tracker.entries[e].state = .waiting → s.tracker.entries[e].domain ≠ t.request.domain)
    (hd : s.tracker.entries[e].state = .done → s.tracker.entries[e].posted = false → s.tracker.entries[e].response.isSome = true) :
    (s.finish t st fill).tracker.entries[e] = s.tracker.entries[e] := by
  have h : (((s.mapEntry t.entry fill).goDone t.entry st).readyDone t.entry).tracker.entries[e] = s.tracker.entries[e] := by
    unfold State.readyDone
    rw [State.makeReady_other he]
    unfold State.goDone
    rw [State.mapEntry_other he, State.mapEntry_other he]
  unfold State.finish
  rw [State.examine_nil_keeps _ _ _ (by rw [h]; intro hs; simpa using hw hs) (by rw [h]; exact hd), h]

/-! ### One service of the arbiter (R30 to R32) -/

/-- A service that names the arbiter's next choice acts on it. -/
theorem State.serve_of (want : Request → Bool) (act : Taken → State → State) (s : State) (t : Taken) (h : s.nextTaken = some t)
    (hw : want t.request = true) : s.serve want act = act t (s.takeRequest t) := by
  unfold State.serve; rw [h]; simp only [hw, if_true]

/-- A service that names another kind than the arbiter's next choice is none (log 2). -/
theorem State.serve_other (want : Request → Bool) (act : Taken → State → State) (s : State) (t : Taken) (h : s.nextTaken = some t)
    (hw : want t.request = false) : s.serve want act = s := by
  unfold State.serve; rw [h]; simp only [hw, Bool.false_eq_true, if_false]

/-- Without a free entry or a waiting request there is no service (R31). -/
theorem State.serve_none (want : Request → Bool) (act : Taken → State → State) (s : State) (h : s.nextTaken = none) :
    s.serve want act = s := by
  unfold State.serve; rw [h]

@[simp] theorem State.takeRequest_bays (t : Taken) (s : State) : (s.takeRequest t).bays = s.bays := rfl
@[simp] theorem State.takeRequest_events (t : Taken) (s : State) : (s.takeRequest t).events = s.events := rfl
@[simp] theorem State.takeRequest_capture (t : Taken) (s : State) : (s.takeRequest t).capture = s.capture := rfl
@[simp] theorem State.takeRequest_pending (t : Taken) (s : State) : (s.takeRequest t).pending = s.pending := rfl
@[simp] theorem State.takeRequest_tables_apertures (t : Taken) (s : State) : (s.takeRequest t).tables.apertures = s.tables.apertures := rfl
@[simp] theorem State.takeRequest_tables_domains (t : Taken) (s : State) : (s.takeRequest t).tables.domains = s.tables.domains := rfl
@[simp] theorem State.takeRequest_tables_grants (t : Taken) (s : State) : (s.takeRequest t).tables.grants = s.tables.grants := rfl
@[simp] theorem State.takeRequest_tables_freeLevels (t : Taken) (s : State) : (s.takeRequest t).tables.freeLevels = s.tables.freeLevels := rfl
@[simp] theorem State.takeRequest_lastServed (t : Taken) (s : State) : (s.takeRequest t).tables.lastServed = t.domain := rfl
@[simp] theorem State.takeRequest_link (t : Taken) (s : State) : (s.takeRequest t).uplink.link = s.uplink.link := rfl
@[simp] theorem State.takeRequest_refusals (t : Taken) (s : State) : (s.takeRequest t).uplink.refusals = s.uplink.refusals := rfl
@[simp] theorem State.takeRequest_outLink (t : Taken) (s : State) : (s.takeRequest t).uplink.outLink = s.uplink.outLink := rfl
@[simp] theorem State.takeRequest_taken (t : Taken) (s : State) : (s.takeRequest t).tracker.taken = s.tracker.taken ++ [t.entry] := rfl
@[simp] theorem State.takeRequest_nextSeq (t : Taken) (s : State) : (s.takeRequest t).tracker.nextSeq = s.tracker.nextSeq := rfl
@[simp] theorem State.takeRequest_order (t : Taken) (s : State) : (s.takeRequest t).tracker.order = s.tracker.order := rfl
@[simp] theorem State.takeRequest_postedFault (t : Taken) (s : State) : (s.takeRequest t).tracker.postedFault = s.tracker.postedFault := rfl

/-- The entry taken holds the request (R32). -/
theorem State.takeRequest_entry (t : Taken) (s : State) : (s.takeRequest t).tracker.entries[t.entry] = Entry.ofRequest t.request := by
  simp [State.takeRequest]

/-- The service reaches no other entry. -/
theorem State.takeRequest_other (t : Taken) (s : State) (e : EntryId) (he : e ≠ t.entry) :
    (s.takeRequest t).tracker.entries[e] = s.tracker.entries[e] := by
  have hv : t.entry.val ≠ e.val := fun h => he (Fin.ext h.symm)
  simp [State.takeRequest, Vector.getElem_set_ne, hv]

/-- What the end of a request at its admission makes of the part is a service that answers it (R46). -/
theorem State.served_finish {s u : State} {t : Taken} {st : Status} {fill : Entry → Entry}
    (hup : u.uplink = (s.takeRequest t).uplink) (hls : u.tables.lastServed = t.domain) (htr : u.tracker = (s.takeRequest t).tracker)
    (hp : u.pending = s.pending)
    (hfill : ∀ x, (fill x).domain = x.domain ∧ (fill x).tag = x.tag ∧ (fill x).kind = x.kind) : s.Served t (u.finish t st fill) where
  uplink := by rw [State.finish_uplink, hup]; rfl
  lastServed := by rw [State.finish_tables, hls]
  taken := by rw [State.finish_tracker_taken, htr, State.takeRequest_taken]
  identity := by
    rw [State.finish_entry, htr, State.takeRequest_entry]
    exact hfill (Entry.ofRequest t.request)
  others e he hw hd := by
    have hk := State.takeRequest_other t s e he
    rw [State.finish_other t st fill u e he (by rw [htr, hk]; exact hw) (by rw [htr, hk]; exact hd), htr, hk]
  postedFault d hd := by
    unfold State.finish State.examine State.readyAll State.letGo
    rw [State.readyThese_postedFault, State.examineHolds_nil, State.examineSyncs_postedFault _ _ _ (by simpa using hd)]
    show u.tracker.postedFault[d] = _
    rw [htr]; rfl
  pending := by rw [State.finish_pending, hp]

/-- The answer that the end of a request at its admission gives, where `fill` sets the flags, the result word and the data buffer alone (R46, R164). -/
theorem State.answered_finish {s u : State} {t : Taken} {st : Status} {flags : Flags} {result : Word} {buffer : List Word}
    (htr : u.tracker = (s.takeRequest t).tracker) (fill : Entry → Entry)
    (hfill : fill (Entry.ofRequest t.request) = { Entry.ofRequest t.request with flags := flags, result := result, buffer := buffer })
    (hc : flags.carry = false) :
    s.AnsweredWith t st flags result (if t.request.kind.returnsBuffer then buffer else []) (u.finish t st fill) := by
  have hent := State.finish_entry t st fill u
  rw [htr, State.takeRequest_entry, hfill] at hent
  refine { state := ?_, xlat := ?_, posted := ?_, response := ?_, order := ?_ }
  · rw [hent]
  · rw [hent]; rfl
  · rw [hent]; rfl
  · rw [hent]
    obtain ⟨c, sp, de, un, po⟩ := flags
    cases hc
    cases hb : t.request.kind.isBlock <;> simp only [Entry.assemble, Entry.ofRequest, Entry.blank, hb, if_true, Bool.false_eq_true, if_false]
  · unfold State.finish
    obtain ⟨l, hl⟩ := State.examine_nil_order [t.request.domain] (((u.mapEntry t.entry fill).goDone t.entry st).readyDone t.entry)
    refine ⟨l, ?_⟩
    rw [hl]
    unfold State.readyDone
    rw [State.makeReady_order]
    show u.tracker.order ++ [t.entry] ++ l = _
    rw [htr, State.takeRequest_order, List.append_assoc]; rfl

/-- A service stays one where only the blocks it says nothing of change. -/
theorem State.Served.congr {s u v : State} {t : Taken} (h : s.Served t u) (hup : v.uplink = u.uplink)
    (hls : v.tables.lastServed = u.tables.lastServed) (htr : v.tracker = u.tracker) (hp : v.pending = u.pending) : s.Served t v where
  uplink := hup.trans h.uplink
  lastServed := hls.trans h.lastServed
  taken := by rw [htr]; exact h.taken
  identity := by rw [htr]; exact h.identity
  others := by rw [htr]; exact h.others
  postedFault := by rw [htr]; exact h.postedFault
  pending := hp.trans h.pending

/-- An answer reads the tracker alone. -/
theorem State.AnsweredWith.congr {s u v : State} {t : Taken} {st : Status} {flags : Flags} {result : Word} {payload : List Word}
    (h : s.AnsweredWith t st flags result payload u) (htr : v.tracker = u.tracker) : s.AnsweredWith t st flags result payload v where
  state := by rw [htr]; exact h.state
  xlat := by rw [htr]; exact h.xlat
  posted := by rw [htr]; exact h.posted
  response := by rw [htr]; exact h.response
  order := by rw [htr]; exact h.order

/-! ### Entries that have joined a queue in one event (R53) -/

@[simp] theorem State.joinAsTaken_uplink (s0 s : State) : (s0.joinAsTaken s).uplink = s.uplink := rfl
@[simp] theorem State.joinAsTaken_tables (s0 s : State) : (s0.joinAsTaken s).tables = s.tables := rfl
@[simp] theorem State.joinAsTaken_tracker (s0 s : State) : (s0.joinAsTaken s).tracker = s.tracker := rfl
@[simp] theorem State.joinAsTaken_events (s0 s : State) : (s0.joinAsTaken s).events = s.events := rfl
@[simp] theorem State.joinAsTaken_capture (s0 s : State) : (s0.joinAsTaken s).capture = s.capture := rfl
@[simp] theorem State.joinAsTaken_pending (s0 s : State) : (s0.joinAsTaken s).pending = s.pending := rfl

theorem State.joinAsTaken_bay (s0 s : State) (b : BayId) :
    (s0.joinAsTaken s).bays[b] = { s.bays[b] with queue := s.tracker.joinOrder s0.bays[b].queue s.bays[b].queue } := by
  simp [State.joinAsTaken, tabulate]

/-- An empty queue stays empty. -/
@[simp] theorem Tracker.joinOrder_nil (t : Tracker) (before : List EntryId) : t.joinOrder before [] = [] := by
  simp [Tracker.joinOrder]

/-- A queue that no entry has joined stays as it is. -/
theorem Tracker.joinOrder_of_subset (t : Tracker) {before now : List EntryId} (h : ∀ e ∈ now, e ∈ before) : t.joinOrder before now = now := by
  have h1 : now.filter before.contains = now := List.filter_eq_self.2 fun e he => by simpa using h e he
  have h2 : (t.taken.filter fun e => now.contains e && !before.contains e) = [] :=
    List.filter_eq_nil_iff.2 fun e _ => by by_cases he : e ∈ now <;> simp_all
  rw [Tracker.joinOrder, h1, h2, List.append_nil]

/-- The queue holds the entries it held, as long as they are in use. -/
theorem Tracker.mem_joinOrder {t : Tracker} {before now : List EntryId} (h : ∀ e ∈ now, e ∈ t.taken) (e : EntryId) :
    e ∈ t.joinOrder before now ↔ e ∈ now := by
  by_cases hb : e ∈ before <;> simp [Tracker.joinOrder, hb] <;> exact h e

/-- What joined a queue stands at its tail, in the order taken. -/
theorem Tracker.joinOrder_append (t : Tracker) {before joined : List EntryId} (h : ∀ e ∈ joined, e ∉ before) :
    t.joinOrder before (before ++ joined) = before ++ t.taken.filter fun e => joined.contains e := by
  have h1 : before.filter before.contains = before := List.filter_eq_self.2 fun e he => by simpa using he
  have h2 : joined.filter before.contains = [] := List.filter_eq_nil_iff.2 fun e he => by simpa using h e he
  have h3 : (t.taken.filter fun e => (before ++ joined).contains e && !before.contains e) = t.taken.filter fun e => joined.contains e := by
    refine List.filter_congr fun e _ => ?_
    by_cases he : e ∈ before
    · have : e ∉ joined := fun hj => h e hj he
      simp [he, this]
    · simp [he]
  rw [Tracker.joinOrder, List.filter_append, h1, h2, h3, List.append_nil]

/-! ### The order of the responses of an abort (R60, R62) -/

/-- The entries of `q` that are still to come all come, in their order. -/
theorem bringing_filter_in {q : List EntryId} (l : List EntryId) : ∀ {rest : List EntryId}, (∀ e ∈ rest, e ∈ q) →
    (bringing q rest l).filter q.contains = rest := by
  induction l with
  | nil => exact fun h => List.filter_eq_self.2 fun e he => by simpa using h e he
  | cons e l ih =>
    intro rest h
    by_cases hr : e ∈ rest
    · have hsub : ∀ x ∈ (rest.dropWhile (· != e)).drop 1, x ∈ q := fun x hx => h x ((List.dropWhile_sublist _).subset (List.mem_of_mem_drop hx))
      have ht : (rest.takeWhile (· != e)).filter q.contains = rest.takeWhile (· != e) :=
        List.filter_eq_self.2 fun x hx => by simpa using h x ((List.takeWhile_sublist _).subset hx)
      have hd : e :: (rest.dropWhile (· != e)).drop 1 = rest.dropWhile (· != e) := by
        clear h hsub ht ih
        induction rest with
        | nil => cases hr
        | cons y ys ihy =>
          by_cases hy : y = e
          · simp [hy]
          · have : e ∈ ys := by simpa [Ne.symm hy] using hr
            simpa [hy] using ihy this
      rw [bringing, if_pos (by simpa using hr), List.filter_append, ht, List.filter_cons_of_pos (by simpa using h e hr), ih hsub, hd,
        List.takeWhile_append_dropWhile]
    · by_cases hq : e ∈ q
      · rw [bringing, if_neg (by simpa using hr), if_pos (by simpa using hq)]; exact ih h
      · rw [bringing, if_neg (by simpa using hr), if_neg (by simpa using hq), List.filter_cons_of_neg (by simpa using hq)]; exact ih h

/-- Every other entry keeps its place in the list. -/
theorem bringing_filter_out {q : List EntryId} (l : List EntryId) : ∀ {rest : List EntryId}, (∀ e ∈ rest, e ∈ q) →
    (bringing q rest l).filter (fun e => !q.contains e) = l.filter fun e => !q.contains e := by
  have hnone : ∀ r : List EntryId, (∀ e ∈ r, e ∈ q) → (r.filter fun e => !q.contains e) = [] :=
    fun r h => List.filter_eq_nil_iff.2 fun e he => by simpa using h e he
  induction l with
  | nil => exact fun h => hnone _ h
  | cons e l ih =>
    intro rest h
    by_cases hr : e ∈ rest
    · have hsub : ∀ x ∈ (rest.dropWhile (· != e)).drop 1, x ∈ q := fun x hx => h x ((List.dropWhile_sublist _).subset (List.mem_of_mem_drop hx))
      have hq : e ∈ q := h e hr
      rw [bringing, if_pos (by simpa using hr), List.filter_append, hnone _ fun x hx => h x ((List.takeWhile_sublist _).subset hx),
        List.nil_append, List.filter_cons_of_neg (by simpa using hq), ih hsub, List.filter_cons_of_neg (by simpa using hq)]
    · by_cases hq : e ∈ q
      · rw [bringing, if_neg (by simpa using hr), if_pos (by simpa using hq), ih h, List.filter_cons_of_neg (by simpa using hq)]
      · rw [bringing, if_neg (by simpa using hr), if_neg (by simpa using hq), List.filter_cons_of_pos (by simpa using hq), ih h,
          List.filter_cons_of_pos (by simpa using hq)]

end Sys2Proof.Machine
end

