-- ==== Sys2Proof/Tests/Slice0.lean ====
section
/-! SUPPORT. The model's own tests: the well-formedness check, one-step tests from the spec's worked examples, and for every statement with hypotheses a theorem that shows states which meet them. -/

namespace Sys2Proof.Tests

open Sys2Proof.Machine

set_option Elab.async false

/-! ### Scenes -/

/-- The state after a command; a command never stops. -/
def after (c : Instr) (s : State) : State :=
  match exec c s with
  | .next u => u
  | _ => s

/-- The 32 bytes of an identity record with the sum byte that R111 asks for. -/
def idBytes (lanes pages dwell recovery wake : Nat) : List Byte :=
  let body : List Nat := [1, 0, 0, 0, lanes, pages % 256, pages / 256, 0, 0, dwell, recovery, wake % 256, wake / 256] ++ List.replicate 18 0
  (body ++ [(256 - body.sum % 256) % 256]).map (BitVec.ofNat 8)

/-- A bay in state `st` with the outputs and the holdings of that state; a park or a drain still waits for the release of lane 0. -/
def stood (st : BayState) : Bay :=
  { Bay.initial with
    contactFirst := st != .empty, contactSecond := st != .empty, state := st
    mainRail := st.powered, moduleReset := st.inReset
    identity := if st.inService then some (identityOfBytes (idBytes 3 512 5 10 20)) else none
    pollTimer := if st.inService then some 100000 else none
    timer := if st.timed then some 1 else none
    depth := if st.hasDepth then some .light else none
    cause := if st == .faulted then .railTimeout else .none
    idLine := if st == .identifying then [.openingMark] else []
    lanes := if st == .parking || st == .draining then
        (Vector.replicate 4 Lane.shut).set 0 { Lane.shut with state := .opened, page := some 1, releasePending := true, dwellTimer := some 5 }
      else Vector.replicate 4 Lane.shut }

/-- The records of Table 1-8. -/
def exampleApertures : Vector Aperture 32 :=
  (((Vector.replicate 32 Aperture.cleared).set 0
    { valid := true, kind := .memory, first := 0x40000000, last := 0x400FFFFF, bay := 2, offset := 0x00100000, width := .w32, policy := .hold,
      posting := true, ordering := .strict, writeProtect := false, auxGated := false, level := 2, mask := 0x0F }).set 1
    { valid := true, kind := .memory, first := 0x40080000, last := 0x4008FFFF, bay := 2, offset := 0x00180000, width := .w32, policy := .close,
      posting := false, ordering := .relaxed, writeProtect := true, auxGated := false, level := 3, mask := 0xF0 }).set 2
    { valid := true, kind := .port, first := 0x60000200, last := 0x600002FF, bay := 5, offset := 0x800, width := .w16, policy := .hold,
      posting := true, ordering := .relaxed, writeProtect := false, auxGated := true, level := 1, mask := 0xFF }

/-- The rack of 1.8 and 2.4.3: the settings of Table 1-7, with the link UP. -/
def rack : State :=
  { State.reset with
    uplink := { State.reset.uplink with link := .up }
    tables := { State.reset.tables with
      apertures := exampleApertures
      domains := ((((((State.reset.tables.domains.set 1 { enabled := true, level := 2, spurious := 255 }).set 2 { enabled := true, level := 1, spurious := 255 }).set 3
        { enabled := true, level := 1, spurious := 255 }).set 4 { enabled := true, level := 2, spurious := 255 }).set 5 { enabled := true, level := 3, spurious := 255 }))
      freeLevels := State.reset.tables.freeLevels.set 5 1 }
    bays := (State.reset.bays.set 2 (stood .online)).set 5 { stood .online with auxWanted := true, auxRail := true } }

/-- Put bay `b` in place. -/
def seat (b : BayId) (y : Bay) (s : State) : State := s.mapBay b fun _ => y

/-- Put a request alone in its domain's intake queue. -/
def asks (r : Request) (s : State) : State := { s with uplink := { s.uplink with intake := s.uplink.intake.set r.domain [r] } }

/-- The arbiter's choice where `r` waits alone and no entry is in use. -/
def taken (r : Request) : Taken := { domain := r.domain, request := r, entry := 0 }

/-- A request without operands. -/
def plain (k : ReqKind) (d : DomainId) : Request :=
  { kind := k, domain := d, tag := 7, size := 0, stride := .none, word1 := 0, mask := 0, aux := 0, count := 0, payload := [] }

/-- A data request. -/
def data (k : ReqKind) (d : DomainId) (size : Nat) (addr : Word) (payload : List Word) : Request :=
  { plain k d with size := size, word1 := addr, payload := payload }

/-- A CTL_WRITE of domain 0. -/
def ctlWrite (g i : Nat) (payload : List Word) : Request := { plain .ctlWrite 0 with word1 := BitVec.ofNat 32 (g * 2 ^ 24 + i), payload := payload }

/-- A CTL_READ of domain 0. -/
def ctlRead (g i : Nat) : Request := { plain .ctlRead 0 with word1 := BitVec.ofNat 32 (g * 2 ^ 24 + i) }

/-- A BAY_ACTION of domain 0 on bay 3. -/
def action (c : Nat) : Request := { plain .bayAction 0 with word1 := BitVec.ofNat 32 (3 * 2 ^ 8 + c) }

/-- Put an entry into the tracker; one that is at its bay joins that bay's queue, and one with a response joins the response order. -/
def files (e : EntryId) (x : Entry) (s : State) : State :=
  let s1 : State := { s with tracker := { s.tracker with
    entries := s.tracker.entries.set e x, taken := s.tracker.taken ++ [e]
    order := if x.response.isSome then s.tracker.order ++ [e] else s.tracker.order } }
  match x.xlat with
  | some t => if x.state.atBay then s1.mapBay t.bay fun y => { y with queue := y.queue ++ [e] } else s1
  | none => s1

/-- The translation copy of a request through record `i` of Table 1-8. -/
def copy (r : Request) (i : Fin 32) : Translation := translation r i exampleApertures[i]

/-- The entry of a data request through record `i` of Table 1-8, in state `st`. -/
def entryOf (r : Request) (i : Fin 32) (st : EntryState) : Entry := { Entry.ofRequest r with state := st, xlat := some (copy r i) }

/-! ### Well-formedness -/

theorem test_identityRead_of31BytesIsIllFormed : (Instr.identityReadEnd 0 (List.replicate 31 0)).wf = false := by decide
theorem test_identityRead_of33BytesIsIllFormed : (Instr.identityReadEnd 0 (List.replicate 33 0)).wf = false := by decide
theorem test_identityRead_of32BytesIsWellFormed : (Instr.identityReadEnd 0 (List.replicate 32 0)).wf = true := by decide

/-! ### Packets (Chapter 9) -/

/-- A READ of size 8 from domain 1 with tag 7, laid out by Table 9-3. -/
theorem test_packet_makesRequest : parseRequest 0x020E0040 0x40081FF8 0 [] = some (data .read 1 8 0x40081FF8 []) := by decide

/-- A misaligned READ, a READ of NONE size and a RESPONSE are MALFORMED. -/
theorem test_packet_malformed :
    parseRequest 0x020E0040 0x40081FFC 0 [] = none ∧ parseRequest 0x020E0000 0x40081FF8 0 [] = none ∧ parseRequest 0xE0000000 0 0 [] = none := by decide

/-- A packet of good form waits in its domain's intake queue. -/
theorem test_packetReceived_isPlaced :
    (after (.packetReceived [0x020E0040, 0x40081FF8, 0]) rack).uplink.intake[(1 : DomainId)] = [data .read 1 8 0x40081FF8 []] := by decide +kernel

/-- A response of domain 1, tag 7, LEVEL with units done 3 and CARRY, and a notice of domain 2 with priority 9 (Table 9-4). -/
theorem test_outbound_words :
    Response.words { domain := 1, tag := 7, status := .level, unitsDone := 3, flags := { carry := true }, result := 5, payload := [6] } = [0xE20E009C, 0x00010003, 5, 6]
      ∧ noticeWords 2 9 = [0xF4000000, 9, 0] := by decide

/-- Domain 0's notice is taken before the refusal (R163). -/
theorem test_transmitChoice_takesNotice :
    (after .transmitChoice (({ rack with uplink := { rack.uplink with refusals := [refusalOf 0 .malformed] } }).mapDelivery 0
      fun y => { y with signal := true, notice := true })).uplink.outLink = some [0xF0000000, 0, 0] := by decide +kernel

/-! ### Apertures and admission (1.8, 2.4.3, 2.6.1) -/

/-- Steps 2 and 3 of 1.8: the match by the domain mask, and the module address. -/
theorem test_lookup_byDomain :
    lookup exampleApertures (data .read 1 8 0x40081FF8 []) = some 0 ∧ lookup exampleApertures (data .read 5 4 0x40080010 []) = some 1
      ∧ (copy (data .read 1 8 0x40081FF8 []) 0).addr = 0x181FF8 ∧ (copy (data .read 5 4 0x40080010 []) 1).addr = 0x180010 := by decide

/-- Steps 2, 4 and 5 of 1.8 and the six requests of 2.4.3. -/
theorem test_checks_ofWorkedExamples :
    rack.checkData (data .read 1 8 0x40081FF8 []) = .admitted 0
      ∧ rack.checkData (data .write 5 4 0x40080010 [0]) = .refused .writeProtect
      ∧ rack.checkData { data .blockRead 1 4 0x400FFFF0 [] with count := 16, stride := .increment } = .refused .span
      ∧ rack.checkData (data .read 6 4 0x60000230 []) = .refused .domainOff
      ∧ rack.checkData (data .read 4 4 0x60000230 []) = .refused .level
      ∧ rack.checkData (data .read 3 4 0x60000240 []) = .admitted 2
      ∧ rack.checkData { data .blockRead 3 4 0x600002F0 [] with count := 8, stride := .increment } = .refused .span
      ∧ (seat 5 (stood .online) rack).checkData (data .write 2 4 0x600002FC [0]) = .refused .railOff := by decide +kernel

/-- The last paragraph of 2.4.3: record 2 with level 2, and grant record 37 with group 131 alone. -/
def granted : State :=
  { rack with tables := { rack.tables with
    apertures := exampleApertures.set 2 { exampleApertures[2] with level := 2 }
    grants := rack.tables.grants.set 37 ((Vector.replicate 8 (0 : Word)).set 4 8) } }

theorem test_checks_portGrants :
    granted.checkData (data .read 4 4 0x60000230 []) = .admitted 2 ∧ granted.checkData (data .read 4 8 0x60000238 []) = .admitted 2
      ∧ granted.checkData { data .blockRead 4 4 0x6000023C [] with count := 4, stride := .increment } = .refused .portDenied := by decide +kernel

/-- Step 6 of 1.8: the addresses of the units of a DECREMENT block, their pages and lanes. -/
theorem test_units_ofDecrementBlock :
    ([0, 1, 2].map fun k => unitAddr 0x101000 .decrement 2 k) = [0x101000, 0x100FFE, 0x100FFC]
      ∧ pageOf 0x101000 = 257 ∧ laneOf 257 3 = 2 ∧ pageOf 0x100FFE = 256 ∧ laneOf 256 3 = 1 := by decide

/-- Step 6 of 1.8, unit 1, and step 7: the exchange of a unit narrower than the width. -/
theorem test_exchange_ofNarrowUnit :
    exchangeAddr 0x100FFE .w32 0 = 0x100FFC ∧ writeMask 0x100FFE 2 .w32 0x100FFC = [false, false, true, true]
      ∧ exchangeAddr 0x833 .w16 0 = 0x832 ∧ writeMask 0x833 1 .w16 0x832 = [false, true] ∧ writeData 0x833 1 .w16 [0x5A] 0x832 = [0, 0x5A] := by decide

/-- 5.7: 0xFFFFFFF0 plus 0x20 at size 4. -/
theorem test_fetchAdd_carries :
    fetchNew 4 (bytesOfNat 4 0xFFFFFFF0) (bytesOfNat 4 0x20) = bytesOfNat 4 0x10 ∧ fetchCarry 4 (bytesOfNat 4 0xFFFFFFF0) (bytesOfNat 4 0x20) = true := by decide

/-- The first service of 2.6.1: from last-served 2, domain 3's CTL_WRITE is taken and refused LEVEL. -/
theorem test_arbiter_firstService :
    let s := asks { ctlWrite 3 0 [] with domain := 3 } (asks (data .read 1 4 0x40000000 []) { rack with tables := { rack.tables with lastServed := 2 } })
    let u := after .ctlWriteGrant s
    u.tables.lastServed = 3 ∧ u.tracker.entries[(0 : EntryId)].status = .level ∧ u.uplink.intake[(1 : DomainId)].length = 1 := by decide +kernel

/-- A READ that passes its checks is QUEUED at its bay. -/
theorem test_read_isQueued :
    let u := after .read (asks (data .read 1 8 0x40081FF8 []) rack)
    u.tracker.entries[(0 : EntryId)].state = .queued ∧ u.bays[(2 : BayId)].queue = [0] ∧ u.tracker.order = [] := by decide +kernel

/-- Step 7 of 1.8: a posted WRITE has its OK response ready at once. -/
theorem test_write_isPosted :
    let u := after .write (asks (data .write 3 1 0x60000233 [0x5A]) rack)
    u.tracker.entries[(0 : EntryId)].posted = true ∧ u.tracker.order = [0] ∧ u.bays[(5 : BayId)].queue = [0] := by decide +kernel

/-! ### Control requests and bay actions -/

/-- Step 1 of 1.8: a start that is no multiple of 4096 is refused BAD_RECORD. -/
theorem test_ctlWriteAperture_badRecord :
    let u := after .ctlWriteAperture (asks (ctlWrite 1 3 [0x50000800, 0x5000FFFF, 0, 0x000F0041]) rack)
    u.tracker.entries[(0 : EntryId)].status = .badRecord ∧ u.tables.apertures[(3 : Fin 32)] = Aperture.cleared := by decide +kernel

/-- The same with a start that is. -/
theorem test_ctlWriteAperture_replaces :
    (after .ctlWriteAperture (asks (ctlWrite 1 3 [0x50000000, 0x5000FFFF, 0, 0x000F0041]) rack)).tables.apertures[(3 : Fin 32)] =
      { Aperture.cleared with valid := true, first := 0x50000000, last := 0x5000FFFF, width := .w32, mask := 0x0F } := by decide +kernel

/-- DEVICE_ID (R169). -/
theorem test_ctlRead_deviceId : (after .ctlRead (asks (ctlRead 14 0) rack)).tracker.entries[(0 : EntryId)].buffer = [0x00010408, 0x20080820] := by decide +kernel

/-- BAY_STATUS of an ONLINE bay: state 7, both rails on, aux-wanted. -/
theorem test_ctlRead_bayStatus : rack.readRecord 8 5 = [0x00000707, 0, 0, 0, 0, 0] := by decide +kernel

/-- POWER_ON of an UNPOWERED bay switches the rail on. -/
theorem test_powerOn_entersPowering :
    let y := (after .powerOn (asks (action 1) (seat 3 (stood .unpowered) rack))).bays[(3 : BayId)]
    y.state = .powering ∧ y.mainRail = true ∧ y.timer = some 50000 := by decide +kernel

/-- A RESET of an ONLINE bay leads to HELD. -/
theorem test_reset_entersHeld :
    let y := (after .reset (asks (action 5) (seat 3 (stood .online) rack))).bays[(3 : BayId)]
    y.state = .held ∧ y.identity = none ∧ y.timer = some 10000 := by decide +kernel

/-! ### Claims (8.9) -/

/-- The rack of 8.9 after step 2: latches 26 and 37 are set, and domain 1 is signalled. -/
def claims : State :=
  { rack with
    tables := { rack.tables with domains := (rack.tables.domains.set 1 { enabled := true, level := 1, spurious := 255 }).set 2 { enabled := true, level := 0, spurious := 255 } }
    events := { rack.events with
      limit := 64
      routes := (((rack.events.routes.set 26 { masked := false, priority := 5, vector := 20, destination := 1 }).set 28
        { masked := false, priority := 9, vector := 21, destination := 1 }).set 37 { masked := false, priority := 5, vector := 22, destination := 1 }).set 65
        { masked := false, priority := 7, vector := 40, destination := 0 }
      descriptors := (((rack.events.descriptors.set 20 { present := true, kind := .tracked, messageLevel := 0, handler := 0xA0 }).set 21
        { present := true, kind := .tracked, messageLevel := 0, handler := 0xA1 }).set 22 { present := true, kind := .tracked, messageLevel := 0, handler := 0xA2 }).set 40
        { present := true, kind := .untracked, messageLevel := 1, handler := 0xB0 }
      bayPending := (rack.events.bayPending.set 26 true).set 37 true
      delivery := rack.events.delivery.set 1 { threshold := 2, signal := true, notice := false, inService := [] } } }

/-- The claims rack after step 3: source 26 is in service, and latch 37 waits. -/
def serving : State :=
  { claims with events := { claims.events with
    bayPending := rack.events.bayPending.set 37 true
    bayActive := rack.events.bayActive.set 26 true
    delivery := rack.events.delivery.set 1 { threshold := 2, signal := false, notice := false, inService := [{ source := 26, priority := 5, vector := 20 }] } } }

/-- Step 3: source 26 is claimed, and source 37 does not exceed it. -/
theorem test_claim_step3 :
    let u := after .claim (asks (plain .claim 1) claims)
    u.tracker.entries[(0 : EntryId)].buffer = [0x00051A14, 0xA0] ∧ u.events.bayPending = serving.events.bayPending ∧ u.events.bayActive = serving.events.bayActive
      ∧ u.events.delivery[(1 : DomainId)] = serving.events.delivery[(1 : DomainId)] := by decide +kernel

/-- Step 4: SUPPLY_FAIL of bay 3 makes a notice. -/
theorem test_raise_step4 :
    let u := (seat 3 { stood .online with policy := { BayPolicy.initial with sense := 0x14 } } serving).raise 3 .supplyFail
    u.events.bayPending[(28 : Fin 64)] = true ∧ u.events.delivery[(1 : DomainId)].notice = true := by decide +kernel

/-- Step 5: a MESSAGE on channel 1 sets latch (1, 1). -/
theorem test_message_step5 :
    let u := after .message (asks { plain .message 2 with aux := 1, mask := 2 } serving)
    u.events.isPending (.msg 1 1) = true ∧ u.tracker.entries[(0 : EntryId)].result = 1 := by decide +kernel

/-- Step 9: the last service ends, and source 37 is signalled. -/
theorem test_complete_step9 :
    let u := after .complete (asks (plain .complete 1) serving)
    u.tracker.entries[(0 : EntryId)].result = 0x00001A14 ∧ u.events.delivery[(1 : DomainId)].notice = true := by decide +kernel

/-- A claim with nothing deliverable answers the spurious vector. -/
theorem test_claim_spurious :
    let u := after .claim (asks (plain .claim 1) serving)
    u.tracker.entries[(0 : EntryId)].buffer = [255, 0] ∧ u.tracker.entries[(0 : EntryId)].flags = { spurious := true } := by decide +kernel

/-! ### The bay bus (5.6, 5.7, 7.1) -/

/-- Bay 2 with the READ of step 2 of 1.8 at the head of its queue, its decision point due. -/
def reading : State := (files 0 (entryOf (data .read 1 8 0x40081FF8 []) 0 .queued) rack).mapBay 2 Bay.callArbiter

/-- The entry begins with the SELECT of page 385 on lane 1. -/
theorem test_decisionPoint_selects :
    let y := (after (.bayDecisionPoint 2) reading).bays[(2 : BayId)]
    y.exchange = some { op := .select 1 385, timeout := 64 } ∧ y.lanes[(1 : LaneId)].state = .opening := by decide +kernel

/-- The entry of an idle bay brings its decision point, and a bay for which none is due makes no choice, though a poll is owed. -/
theorem test_decisionPoint_isTakenWhereDue :
    (after .read (asks (data .read 1 8 0x40081FF8 []) rack)).bays[(2 : BayId)].due = true
      ∧ (after (.bayDecisionPoint 3) (seat 3 { stood .parking with owed := 1 } rack)).bays[(3 : BayId)].exchange = none
      ∧ (after (.bayDecisionPoint 3) (seat 3 { stood .parking with owed := 1, due := true } rack)).bays[(3 : BayId)].exchange.isSome = true := by decide +kernel

/-- The dwell expiry of a lane whose release is pending brings a decision point. -/
theorem test_dwellExpiry_callsArbiter :
    (after (.dwellExpiry 3 0) (seat 3 (stood .parking) rack)).bays[(3 : BayId)].due = true := by decide +kernel

/-- Bay 2 with unit `u` of entry 0 under way and exchange `op` in progress. -/
def busy (x : Entry) (u : UnitRun) (op : ExchangeOp) : State :=
  (files 0 { x with state := .running } rack).mapBay 2 fun y =>
    { y with unit := some u, exchange := some { op := op, timeout := 64 }
             lanes := y.lanes.set 1 { Lane.shut with state := .opened, page := some 385, dwellTimer := some 5 } }

/-- The unit of the READ of step 2 of 1.8, at its exchange `j`. -/
def readUnit (j : Nat) (got : List Byte) : UnitRun :=
  { entry := 0, dir := .read, addr := 0x181FF8, size := 8, width := .w32, policy := .hold, place := some { lane := 1, page := 385 }
    value := [], phase := .reading j, got := got }

/-- The status word of a ready module. -/
def readyWord : StatusWord := { zeroStatus with ready := true }

/-- The second MREAD follows the first, and its answer completes the READ. -/
theorem test_exchangeAnswer_completesRead :
    let x := entryOf (data .read 1 8 0x40081FF8 []) 0 .running
    let s := busy x (readUnit 0 []) (.mread 0x181FF8 .w32)
    let t := busy x (readUnit 1 [0x44, 0x33, 0x22, 0x11]) (.mread 0x181FFC .w32)
    (after (.exchangeAnswer 2 false (.ack 0x11223344 readyWord)) s).bays[(2 : BayId)] = t.bays[(2 : BayId)]
      ∧ let u := after (.exchangeAnswer 2 false (.ack 0x55667788 readyWord)) t
        u.tracker.entries[(0 : EntryId)].state = .done ∧ u.tracker.entries[(0 : EntryId)].buffer = [0x11223344, 0x55667788]
          ∧ u.tracker.order = [0] ∧ u.bays[(2 : BayId)].queue = [] := by decide +kernel

/-- A timeout ends the READ with TIMEOUT and its lane CLOSING. -/
theorem test_exchangeTimeout_endsRead :
    let u := after (.exchangeTimeout 2) (busy (entryOf (data .read 1 8 0x40081FF8 []) 0 .running) (readUnit 0 []) (.mread 0x181FF8 .w32))
    u.tracker.entries[(0 : EntryId)].status = .timeout ∧ u.bays[(2 : BayId)].lanes[(1 : LaneId)].state = .closing ∧ u.bays[(2 : BayId)].timeouts = 1 := by decide +kernel

/-- An expiry that brings the owed count of a PARKED bay to 8 starts its wake. -/
theorem test_pollTimer_wakesParkedBay :
    let y := (after (.pollTimerExpiry 3) (seat 3 { stood .parked with owed := 7 } rack)).bays[(3 : BayId)]
    y.state = .waking ∧ y.owed = 8 ∧ y.timer = some 5 := by decide +kernel

/-- The recovery of lane 0 ends a drain that waited for it. -/
theorem test_recoveryExpiry_endsDrain :
    (after (.recoveryExpiry 3 0) (seat 3 { stood .draining with
      lanes := (Vector.replicate 4 Lane.shut).set 0 { Lane.shut with state := .closing, recoveryTimer := some 10 } } rack)).bays[(3 : BayId)].state = .unpowered := by decide +kernel

/-! ### The life of a module (Chapter 6) -/

/-- Both contacts made start the debounce. -/
theorem test_contact_seats :
    let y := (after (.presenceContactChange 3 .second true) (seat 3 { stood .empty with contactFirst := true } rack)).bays[(3 : BayId)]
    y.state = .seating ∧ y.timer = some 20000 := by decide +kernel

/-- A record of a wrong sum faults the bay, and one that is right brings it ONLINE with three lanes. -/
theorem test_identityReadEnd_checksSum :
    (after (.identityReadEnd 3 (List.replicate 32 1)) (seat 3 (stood .identifying) rack)).bays[(3 : BayId)].cause = .identityBad
      ∧ (after (.identityReadEnd 3 (idBytes 3 512 5 10 20)) (seat 3 (stood .identifying) rack)).bays[(3 : BayId)].identity.map idLaneCount = some 3 := by decide +kernel

/-- A read whose second address phase goes unanswered, and one cut short by a removal, end with the closing mark (Table 6-3, R113). -/
theorem test_identityLine_isClosed :
    (after (.idNoAnswer { bay := 3, phase := .addressRead }) (seat 3 (stood .identifying) rack)).bays[(3 : BayId)].idLine =
        [.openingMark, .address 0x4D .write true, .offset 0 true, .openingMark, .address 0x4D .read false, .closingMark]
      ∧ (after (.presenceContactChange 3 .first false) (seat 3 (stood .identifying) rack)).bays[(3 : BayId)].idLine = [.openingMark, .closingMark] := by decide +kernel

/-- Two READs of bay 2 with a SYNC of another domain taken between them, that waits for the first: the three responses join the order in the order taken (R60). -/
theorem test_abort_ordersResponsesAsTaken :
    let s := files 2 (entryOf (data .read 1 4 0x40000000 []) 0 .queued)
      (files 1 { Entry.ofRequest (plain .sync 0) with state := .waiting } (files 0 (entryOf (data .read 0 4 0x40000000 []) 0 .queued) rack))
    (s.faultBay 2 .moduleNotReady).tracker.order = [0, 1, 2] := by decide +kernel

/-- READs of domains 0 and 1 that stand in the queue of bay 2 in the other order than they were taken in, with a SYNC of domain 0 taken between them: the queue order (R62) puts the READ of domain 1 first, and the SYNC goes DONE after the READ of its own domain (R56). -/
theorem test_abort_syncFollowsItsDomain :
    let s := files 2 (entryOf (data .read 1 4 0x40000000 []) 0 .queued)
      (files 1 { Entry.ofRequest (plain .sync 0) with state := .waiting } (files 0 (entryOf (data .read 0 4 0x40000000 []) 0 .queued) rack))
    ((s.mapBay 2 fun y => { y with queue := [2, 0] }).faultBay 2 .moduleNotReady).tracker.order = [2, 0, 1] := by decide +kernel

/-- Bay 2 ends its third exchange in a row as a timeout. Posted WRITEs of domains 0 and 1 stand in its queue, and a STRICT READ of each domain waits for its WRITE to go to bay 5, that of domain 1 taken first. -/
def lastTimeout : State :=
  let write (d : DomainId) (st : EntryState) : Entry := { entryOf (data .write d 4 0x40081FF8 [1]) 0 st with posted := true }
  let waits (d : DomainId) : Entry :=
    { entryOf (data .read d 4 0x40000000 []) 0 .held with xlat := some { copy (data .read d 4 0x40000000 []) 0 with bay := 5 } }
  (files 3 (waits 0) (files 2 (waits 1) (files 1 (write 1 .queued) (files 0 (write 0 .running) rack)))).mapBay 2 fun y =>
    { y with timeouts := 2, exchange := some { op := .mwrite 0x181FF8 .w32 [1, 0, 0, 0] [true, true, true, true], timeout := 64 }
             unit := some { readUnit 0 [] with dir := .write, size := 4, value := [1, 0, 0, 0], phase := .writing 0 } }

/-- The timed-out WRITE lets the READ of domain 0 go and the fault that of domain 1; they join the queue of bay 5 in the order taken (R53). -/
theorem test_thirdTimeout_releasesAsTaken :
    let u := after (.exchangeTimeout 2) lastTimeout
    u.bays[(5 : BayId)].queue = [2, 3] ∧ u.bays[(2 : BayId)].state = .faulted ∧ u.bays[(2 : BayId)].queue = [] := by decide +kernel

/-- A rail-good that follows the rail timer's expiry is ended, and RETRY waits for a new one; one reported in UNPOWERED takes the bay on to HELD (R106, log 33). -/
theorem test_railGood_afterExpiryIsEnded :
    let late := after (.railGood 3 true) (after (.railTimerExpiry 3) (seat 3 (stood .powering) rack))
    late.bays[(3 : BayId)].railGood = false
      ∧ (after .retry (asks (action 6) late)).bays[(3 : BayId)].state = .powering
      ∧ (after .powerOn (asks (action 1) (after (.railGood 3 true) (seat 3 (stood .unpowered) rack)))).bays[(3 : BayId)].state = .held := by decide +kernel

/-! ### Soundness of the scenes -/

/-- The soundness of a bay, as a check. -/
def bayCheck (y : Bay) : Bool :=
  decide (y.mainRail = y.state.powered ∧ y.moduleReset = y.state.inReset ∧ y.auxRail = (y.mainRail && y.auxWanted))
    && decide ((y.identity.isSome = y.state.inService ∧ y.pollTimer.isSome = y.state.inService ∧ y.timer.isSome = y.state.timed)
      ∧ y.depth.isSome = y.state.hasDepth ∧ (y.cause ≠ .none ↔ y.state = .faulted) ∧ (y.drainRequested = true → y.state.hasDepth = true)
      ∧ (y.state = .identifying → y.idLine = [.openingMark]) ∧ (y.state = .faulted → y.railGood = false))
    && decide ((y.owed ≤ 8 ∧ (y.state.inService = false → y.owed = 0 ∧ y.queue = []) ∧ y.timeouts < 3 ∧ (y.exchange.isSome = true → y.state.arbitrates = true))
      ∧ (y.forced = true → y.state.arbitrates = true) ∧ (y.unit.isSome = true → y.state = .online ∨ y.state = .draining)
      ∧ (y.exchange.all (fun x => x.op != .poll || y.unit.isNone) = true)
      ∧ (y.due = true → (y.state = .online ∨ y.state = .parking ∨ y.state = .draining) ∧ y.exchange = none ∧ y.unit = none)
      ∧ (y.state = .parked → y.queue = [] ∧ y.owed < 8 ∧ y.drainRequested = false))
    && decide (y.state = .parking →
      (y.depth = some .light → ¬ (y.exchange = none ∧ ∀ l : LaneId, y.lanes[l].releasePending = false ∧ y.lanes[l].state ≠ .closing))
      ∧ (y.depth = some .deep → ¬ (y.exchange = none ∧ ∀ l : LaneId, y.lanes[l].state = .closed)))
    && decide (y.state = .draining → y.queue = [] → ¬ (y.exchange = none ∧ ∀ l : LaneId, y.lanes[l].state = .closed)
      ∧ ∀ l : LaneId, y.lanes[l].state = .opened → y.lanes[l].pinned = false → y.lanes[l].releasePending = true)
    && decide (∀ l : LaneId, (y.lanes[l].state ≠ .opened →
        y.lanes[l].dwellExpired = false ∧ y.lanes[l].releasePending = false ∧ y.lanes[l].pinned = false ∧ y.lanes[l].dwellTimer = none)
      ∧ (y.lanes[l].state ≠ .closing → y.lanes[l].recoveryTimer = none) ∧ (y.lanes[l].state = .closed → y.lanes[l].page = none))

/-- A bay that passes the check is sound. -/
theorem bay_sound (y : Bay) (h : bayCheck y = true := by decide +kernel) : y.Sound := by
  simp only [bayCheck, Bool.and_eq_true, decide_eq_true_eq] at h
  obtain ⟨⟨⟨⟨⟨h1, h2⟩, h3⟩, h4⟩, h5⟩, h6⟩ := h
  refine ⟨h1, ⟨h2.1.1, h2.1.2.1, h2.1.2.2, h2.2⟩, ⟨h3.1.1, h3.1.2.1, h3.1.2.2.1, h3.1.2.2.2, h3.2.1, h3.2.2.1, ?_, h3.2.2.2.2⟩, ⟨h4, h5⟩, h6⟩
  intro x hx hp
  have := h3.2.2.2.1
  rw [hx] at this
  simpa [hp] using this

/-- Every bay of the rack is sound. -/
theorem rack_baysSound : rack.BaysSound := by
  have h : ∀ b : BayId, bayCheck rack.bays[b] = true := by decide +kernel
  exact fun b => bay_sound _ (h b)

/-- Seating a sound bay keeps every bay sound. -/
theorem seat_baysSound (b : BayId) {y : Bay} (hy : y.Sound) : (seat b y rack).BaysSound := by
  intro c
  by_cases hc : b = c
  · subst hc; simpa [seat, State.mapBay] using hy
  · have : (seat b y rack).bays[c] = rack.bays[c] := by
      simp only [seat, State.mapBay]
      exact Vector.getElem_set_ne _ _ (fun h => hc (Fin.ext h))
    rw [this]; exact rack_baysSound c

/-- The order of a state's work, as a check. -/
def workCheck (s : State) : Bool :=
  decide (s.tracker.taken.Nodup ∧ ∀ e ∈ s.tracker.taken, s.tracker.entries[e].state ≠ .free
      ∧ (s.tracker.entries[e].state = .held → s.tracker.entries[e].xlat.isSome = true)
      ∧ (s.tracker.entries[e].state = .waiting →
        s.tracker.entries[e].kind = .sync ∧ s.tracker.entries[e].posted = false ∧ s.tracker.entries[e].response = none)
      ∧ (s.tracker.entries[e].response.isSome = true → s.tracker.entries[e].posted = true ∨ s.tracker.entries[e].state = .done)
      ∧ (s.tracker.entries[e].state = .done → s.tracker.entries[e].response.isSome = true))
    && decide (s.tracker.order.Nodup ∧ ∀ e : EntryId, e ∈ s.tracker.order ↔ e ∈ s.tracker.taken ∧ s.tracker.entries[e].response.isSome = true)
    && decide (∀ b : BayId, s.bays[b].queue.Nodup
      ∧ (∀ e ∈ s.bays[b].queue, e ∈ s.tracker.taken ∧ s.tracker.entries[e].state.atBay = true ∧ s.tracker.entries[e].xlat.any (·.bay == b) = true)
      ∧ s.bays[b].unit.all (fun u => s.bays[b].queue.contains u.entry && s.tracker.entries[u.entry].state == .running) = true)
    && decide (∀ e ∈ s.tracker.taken, s.tracker.entries[e].state.atBay = true →
      s.tracker.entries[e].xlat.any (fun x => s.bays[x.bay].queue.contains e) = true)

/-- A state that passes the check has its work in order. -/
theorem work_sound (s : State) (h : workCheck s = true := by decide +kernel) : s.WorkSound := by
  simp only [workCheck, Bool.and_eq_true, decide_eq_true_eq] at h
  obtain ⟨⟨⟨h1, h2⟩, h3⟩, h4⟩ := h
  refine ⟨⟨h1.1, fun e he => (h1.2 e he).1, fun e he => (h1.2 e he).2.1, fun e he => (h1.2 e he).2.2.1, fun e he => (h1.2 e he).2.2.2.1,
    fun e he => (h1.2 e he).2.2.2.2⟩, h2, ?_, ?_⟩
  · refine fun b => ⟨(h3 b).1, fun e he => ⟨((h3 b).2.1 e he).1, ((h3 b).2.1 e he).2.1, ?_⟩, fun u hu => ?_⟩
    · have := ((h3 b).2.1 e he).2.2
      cases hx : s.tracker.entries[e].xlat with
      | none => rw [hx] at this; cases this
      | some x => rw [hx] at this; exact ⟨x, rfl, by simpa only [Option.any_some, beq_iff_eq] using this⟩
    · have := (h3 b).2.2
      rw [hu] at this
      simpa only [Option.all_some, Bool.and_eq_true, List.contains_iff_mem, beq_iff_eq] using this
  · intro e he ha
    have := h4 e he ha
    cases hx : s.tracker.entries[e].xlat with
    | none => rw [hx] at this; cases this
    | some x => rw [hx] at this; exact ⟨x, rfl, by simpa only [Option.any_some, List.contains_iff_mem] using this⟩

/-- A state in which no latch is set signals what it has to. -/
theorem signalled_of_noLatch {s : State} (h1 : s.events.bayPending = Vector.replicate 64 false) (h2 : s.events.msgPending = Vector.replicate 32 false) : s.Signalled := by
  intro d it h
  have : s.events.isPending it = false := by cases it <;> simp [EventUnit.isPending, h1, h2]
  simp [State.deliverable, this] at h

/-! ### Witnesses: the hypotheses of each statement are met, clause by clause -/

theorem witness_StepRunsFrontCommand : rack.pending = [] := rfl

/-- The last has its work in order, with a bay that does not drain and one that does. -/
theorem witness_LinkEventsResetTheLink :
    State.reset.uplink.link = .down ∧ rack.uplink.link = .up ∧ reading.uplink.link = .up ∧ reading.WorkSound ∧ reading.bays[(2 : BayId)].Sound
      ∧ reading.bays[(2 : BayId)].state ≠ .draining ∧ (seat 3 (stood .draining) reading).WorkSound ∧ (stood .draining).Sound ∧ (stood .draining).state = .draining :=
  ⟨rfl, rfl, rfl, work_sound _, bay_sound _, by decide +kernel, work_sound _, bay_sound _, rfl⟩

/-- The rack with `n` refusals waiting. -/
def refusing (n : Nat) : State := { rack with uplink := { rack.uplink with refusals := List.replicate n (refusalOf 0 .malformed) } }

theorem witness_RuntAndMalformedPacketsAreNotPlaced :
    (([] : List Word).length < 3 ∧ [(0 : Word), 0].length < 3) ∧ (refusing 7).uplink.link = .up ∧ (refusing 7).uplink.refusals.length < 8
      ∧ Malformed 0xE0000000 0 0 [] ∧ Malformed 0x020E0040 0x40081FFC 0 [] ∧ Malformed 0x80000000 0 0x00100000 []
      ∧ State.reset.uplink.link = .down ∧ 8 ≤ (refusing 8).uplink.refusals.length := by
  refine ⟨by decide, rfl, by decide, ?_, ?_, ?_, rfl, by decide⟩ <;> unfold Malformed <;> decide

theorem witness_GoodPacketJoinsIntakeQueue :
    (refusing 7).uplink.link = .up ∧ (refusing 7).uplink.refusals.length < 8 ∧ ¬ Malformed 0x020E0040 0x40081FF8 0 []
      ∧ ¬ Malformed 0x80000000 0 0x000F0000 [] := by
  refine ⟨rfl, by decide, ?_, ?_⟩ <;> unfold Malformed <;> decide

/-- The rack with a notice waiting for domains 1 and 7, and a refusal. -/
def noticing : State :=
  ((refusing 1).mapDelivery 1 fun y => { y with signal := true, notice := true }).mapDelivery 7 fun y => { y with signal := true, notice := true }

theorem witness_TransmitterTakesNoticeThenRefusal :
    State.reset.uplink.link = .down
      ∧ ((∀ d : DomainId, rack.events.delivery[d].notice = false) ∧ rack.uplink.refusals = [] ∧ rack.tracker.order = [])
      ∧ noticing.uplink.link = .up ∧ noticing.events.delivery[(1 : DomainId)].notice = true ∧ (∀ d' < (1 : DomainId), noticing.events.delivery[d'].notice = false)
      ∧ noticing.highest 1 = none
      ∧ (∀ d : DomainId, (refusing 1).events.delivery[d].notice = false) ∧ (refusing 1).uplink.refusals = [refusalOf 0 .malformed] := by decide +kernel

/-- An OK response of domain 0. -/
def okResponse : Response := { domain := 0, tag := 7, status := .ok, unitsDone := 0, flags := {}, result := 0, payload := [] }

/-- A READ that is DONE with its response ready, and a posted WRITE still QUEUED at bay 2 with its response ready. -/
def answered : State :=
  files 1 { entryOf (data .write 0 4 0x40000000 [1]) 0 .queued with posted := true, response := some okResponse, seq := some 1 }
    (files 0 { entryOf (data .read 0 4 0x40000000 []) 0 .done with response := some okResponse, seq := some 0 } rack)

/-- The same with the WRITE's response first. -/
def answeredPosted : State := { answered with tracker := { answered.tracker with order := [1, 0] } }

theorem witness_TransmitterTakesHeadResponse :
    answered.uplink.link = .up ∧ (∀ d : DomainId, answered.events.delivery[d].notice = false) ∧ answered.uplink.refusals = []
      ∧ answered.tracker.order = [0, 1] ∧ answered.tracker.entries[(0 : EntryId)].response = some okResponse ∧ answered.tracker.entries[(0 : EntryId)].state = .done
      ∧ answeredPosted.tracker.order = [1, 0] ∧ answeredPosted.tracker.entries[(1 : EntryId)].response = some okResponse
      ∧ answeredPosted.tracker.entries[(1 : EntryId)].state ≠ .done := by decide +kernel

/-- Two requests of domains 0 and 7; the last-served domain of the rack is 7. -/
def asking : State := asks (plain .claim 7) (asks (plain .sync 0) rack)

theorem witness_ArbiterServesRoundRobin :
    asking.nextTaken = some (taken (plain .sync 0)) ∧ commandServes .sync (plain .sync 0) = true ∧ rack.nextTaken = none ∧ asking.uplink.link = .up := by decide +kernel

theorem witness_ServiceTakesItsRequestAlone :
    asking.nextTaken = some (taken (plain .sync 0)) ∧ commandServes .sync (plain .sync 0) = true ∧ Instr.sync ≠ .reset
      ∧ commandServes .claim (plain .claim 7) = true ∧ rack.nextTaken = none ∧ commandServes .claim (plain .sync 0) = false := by decide +kernel

theorem witness_RefusedRequestHasNoEffect :
    let off := plain .sync 6
    let write := { ctlWrite 2 0 [0] with domain := 2 }
    let reads := { ctlRead 14 0 with domain := 1 }
    let data := data .write 5 4 0x40080010 [0]
    ((asks off rack).nextTaken = some (taken off) ∧ commandServes .sync off = true ∧ rack.tables.domains[(6 : DomainId)].enabled = false)
      ∧ ((asks write rack).nextTaken = some (taken write) ∧ commandServes .ctlWriteDomain write = true
        ∧ rack.tables.domains[(2 : DomainId)].enabled = true ∧ rack.tables.domains[(2 : DomainId)].level ≠ 0)
      ∧ ((asks reads rack).nextTaken = some (taken reads) ∧ commandServes .ctlRead reads = true ∧ rack.tables.domains[(1 : DomainId)].enabled = true
        ∧ 1 < rack.tables.domains[(1 : DomainId)].level)
      ∧ (asks data rack).nextTaken = some (taken data) ∧ commandServes .write data = true ∧ (asks data rack).checkData data = .refused .writeProtect := by decide +kernel

/-- One unit that ends on the last byte of record 0, and one that begins there and does not fit. -/
theorem witness_SpanFollowsTable :
    rack.tables.domains[(1 : DomainId)].enabled = true
      ∧ lookup rack.tables.apertures (data .read 1 4 0x400FFFFC []) = some 0 ∧ spanInside (data .read 1 4 0x400FFFFC []) exampleApertures[0] = true
      ∧ lookup rack.tables.apertures (data .read 1 8 0x400FFFFC []) = some 0 ∧ spanInside (data .read 1 8 0x400FFFFC []) exampleApertures[0] = false := by decide +kernel

/-- The checks of step 2 of 1.8 all pass, and the first of step 5 fails. -/
theorem witness_FirstFailingCheckGivesStatus :
    (rack.tables.domains[(6 : DomainId)].enabled = false ∧ rack.tables.domains[(1 : DomainId)].enabled = true
        ∧ lookup rack.tables.apertures (data .read 1 8 0x50000000 []) = none
        ∧ lookup rack.tables.apertures (data .read 1 8 0x40081FF8 []) = some 0 ∧ rack.tables.apertures[(0 : Fin 32)].sound = true)
      ∧ (∀ c ∈ rack.AdmissionSteps (data .read 1 8 0x40081FF8 []) rack.tables.apertures[(0 : Fin 32)], c.1)
      ∧ ∃ c after, rack.AdmissionSteps (data .read 1 8 0x400FFFFC []) rack.tables.apertures[(0 : Fin 32)] = [] ++ c :: after ∧ ¬ c.1 := by
  refine ⟨by decide +kernel, ?_, _, _, rfl, by decide +kernel⟩
  intro c hc
  simp only [State.AdmissionSteps, List.mem_cons, List.not_mem_nil, or_false] at hc
  have hk : rack.tables.apertures[(0 : Fin 32)].kind = .memory := by decide +kernel
  rcases hc with rfl | rfl | rfl | rfl | rfl | rfl | rfl | rfl
  iterate 4 (focus decide +kernel)
  · intro h; rw [hk] at h; cases h
  iterate 2 (focus decide +kernel)
  · exact fun _ => ⟨_, rfl, by decide +kernel⟩

/-- A posted WRITE of domain 0 waits at bay 2. -/
def posting : State := files 0 { entryOf (data .write 0 4 0x40000000 [1]) 0 .queued with posted := true } rack

/-- A READ that goes to its bay, one that a posted write holds back, and one that wakes a PARKED bay, at each depth. -/
theorem witness_AdmittedDataRequestIsPlaced :
    ((rack.bays[(2 : BayId)].queue = [] ∧ rack.bays[(2 : BayId)].BusFree) ∧ posting.bays[(2 : BayId)].queue ≠ []
      ∧ (stood .parked).Sound ∧ (stood .parked).depth = some .light
      ∧ { stood .parked with depth := some .deep }.Sound ∧ { stood .parked with depth := some .deep }.identity.map idDeepWake = some 20
      ∧ { stood .parked with depth := some .deep, identity := some (identityOfBytes (idBytes 3 512 5 10 0)) }.Sound) ∧
    let r := data .read 0 4 0x40000000 []
    (∀ s ∈ [rack, posting, seat 2 (stood .parked) rack], (asks r s).nextTaken.map (·.request) = some r ∧ (asks r s).checkData r = .admitted 0)
      ∧ commandServes .read r = true ∧ rack.tracker.Listed ∧ posting.tracker.Listed
      ∧ rack.tables.apertures[(0 : Fin 32)].ordering = .strict ∧ rack.tracker.postedSet 0 = [] ∧ rack.tracker.holdList 0 2 = [] ∧ posting.tracker.postedSet 0 ≠ []
      ∧ (seat 2 (stood .parked) rack).bays[(2 : BayId)].state = .parked := by
  refine ⟨⟨⟨by decide +kernel, ?_⟩, by decide +kernel, bay_sound _, rfl, bay_sound _, by decide +kernel, bay_sound _⟩,
    by decide +kernel, by decide +kernel, (work_sound rack).1, (work_sound posting).1, ?_⟩
  · unfold Bay.BusFree; decide +kernel
  · decide +kernel

theorem witness_SyncWaitsForEarlierEntries :
    let r := plain .sync 0
    (rack.tracker.Listed ∧ (asks r rack).nextTaken = some (taken r) ∧ rack.tables.domains[(0 : DomainId)].enabled = true ∧ rack.tracker.admissionList 0 = [])
      ∧ posting.tracker.Listed ∧ (asks r posting).nextTaken = some { taken r with entry := 1 }
        ∧ posting.tracker.entries[(0 : EntryId)].state ≠ .done ∧ posting.tracker.entries[(0 : EntryId)].state ≠ .waiting ∧ posting.tracker.admissionList 0 = [0] := by
  exact ⟨⟨(work_sound rack).1, by decide +kernel⟩, (work_sound posting).1, by decide +kernel⟩

/-! #### The event unit -/

theorem witness_RiseIsLatchedWhileSensed :
    rack.bays[(7 : BayId)].policy.sense.getLsbD CondKind.pollOverrun.index = false
      ∧ (seat 7 { stood .online with policy := { BayPolicy.initial with sense := 0x80 } } rack).bays[(7 : BayId)].policy.sense.getLsbD CondKind.pollOverrun.index = true
      ∧ (63 : Fin 64).val = 8 * (7 : BayId).val + CondKind.pollOverrun.index.val := by decide +kernel

/-- The claims rack with the descriptor of the highest item as an UNTRACKED one. -/
def claimsUntracked : State := { claims with events := { claims.events with descriptors := claims.events.descriptors.set 20 { present := true, kind := .untracked, messageLevel := 0, handler := 0 } } }
/-- The claims rack with a limit equal to the vector of the highest item. -/
def claimsDefect : State := { claims with events := { claims.events with limit := 20 } }

theorem witness_ClaimTakesHighestItem :
    let r := plain .claim 1
    (∀ s ∈ [serving, claims, claimsUntracked, claimsDefect], (asks r s).nextTaken = some (taken r) ∧ s.tables.domains[(1 : DomainId)].enabled = true)
      ∧ serving.highest 1 = none
      ∧ (∀ s ∈ [claims, claimsUntracked, claimsDefect], s.highest 1 = some (.bay 26) ∧ s.events.routes[(26 : Fin 68)].vector = 20
        ∧ s.events.descriptors[(20 : Fin 256)].present = true)
      ∧ 20 < claims.events.limit ∧ claims.events.descriptors[(20 : Fin 256)].kind = .tracked
      ∧ claimsUntracked.events.descriptors[(20 : Fin 256)].kind = .untracked ∧ ¬ 20 < claimsDefect.events.limit := by decide +kernel

theorem witness_CompleteEndsNewestService :
    let r := plain .complete 1
    (asks r claims).nextTaken = some (taken r) ∧ claims.events.delivery[(1 : DomainId)].inService = [] ∧ (asks r serving).nextTaken = some (taken r)
      ∧ serving.events.delivery[(1 : DomainId)].inService = [{ source := 26, priority := 5, vector := 20 }] ∧ serving.tables.domains[(1 : DomainId)].enabled = true := by decide +kernel

theorem witness_ClearServiceEmptiesList :
    let r := plain .clearService 1
    (asks r serving).nextTaken = some (taken r) ∧ serving.tables.domains[(1 : DomainId)].enabled = true ∧ serving.events.Nested := by
  refine ⟨by decide +kernel, by decide +kernel, ?_⟩
  unfold EventUnit.Nested; decide +kernel

theorem witness_ThresholdIsReplaced :
    ∀ v ∈ [(0 : Byte), 15], let r := { plain .threshold 1 with aux := v }
      (asks r rack).nextTaken = some (taken r) ∧ rack.tables.domains[(1 : DomainId)].enabled = true ∧ r.aux.toNat ≤ 15 := by decide +kernel

/-- Channel 1 from domain 2 at level 0, from domain 3 at level 1, and from domain 4 at level 2; channel 3 has no descriptor. -/
theorem witness_MessageSetsEnabledLatches :
    let r (d : DomainId) (c : Byte) : Request := { plain .message d with aux := c, mask := 0xFF }
    (∀ d ∈ [(2 : DomainId), 3, 4], (asks (r d 1) claims).nextTaken = some (taken (r d 1)) ∧ claims.tables.domains[d].enabled = true)
      ∧ (asks (r 2 3) claims).nextTaken = some (taken (r 2 3))
      ∧ (r 2 1).aux.toNat = (1 : Fin 4).val ∧ (r 2 3).aux.toNat = (3 : Fin 4).val
      ∧ (claims.events.routes[(65 : Fin 68)].vector = 40 ∧ 40 < claims.events.limit ∧ claims.events.descriptors[(40 : Fin 256)].present = true)
      ∧ (claims.events.routes[(67 : Fin 68)].vector = 0 ∧ claims.events.descriptors[(0 : Fin 256)].present = false)
      ∧ claims.tables.domains[(2 : DomainId)].level ≤ claims.events.descriptors[(40 : Fin 256)].messageLevel
      ∧ claims.tables.domains[(3 : DomainId)].level ≤ claims.events.descriptors[(40 : Fin 256)].messageLevel
      ∧ claims.events.descriptors[(40 : Fin 256)].messageLevel < claims.tables.domains[(4 : DomainId)].level := by decide +kernel

/-! #### The control space -/

/-- The first and the last record of a group, read at level 0. -/
theorem witness_CtlReadReturnsRecord :
    (∀ row ∈ recordGroups, ∀ i ∈ [0, row.2.2.1 - 1], (asks (ctlRead row.1 i) rack).nextTaken = some (taken (ctlRead row.1 i))
        ∧ (ctlRead row.1 i).group = row.1 ∧ (ctlRead row.1 i).index = i ∧ i < row.2.2.1)
      ∧ rack.tables.domains[(0 : DomainId)].enabled = true ∧ rack.tables.domains[(0 : DomainId)].level.val ≤ 1 := by decide +kernel

theorem witness_DeviceIdIsFixed :
    (asks (ctlRead 14 0) rack).nextTaken = some (taken (ctlRead 14 0)) ∧ (ctlRead 14 0).group = 14 ∧ (ctlRead 14 0).index = 0 := by decide +kernel

/-- An identity record is held, and a capture record is valid. -/
theorem witness_ReadOnlyRecordsAreLaidOut :
    rack.bays[(0 : BayId)].identity = none ∧ rack.bays[(2 : BayId)].identity.isSome = true ∧ rack.capture = none
      ∧ (rack.offer { kind := .runtPacket, who := none, bay := none, xlat := none }).capture.isSome = true := by decide +kernel

theorem witness_WrittenRecordsReadBack :
    (∀ i ∈ [(0 : Fin 32), 1, 2], exampleApertures[i].valid = true ∧ exampleApertures[i].sound = true)
      ∧ 1 ≤ BayPolicy.initial.readyTimeout ∧ BayPolicy.initial.readyTimeout ≤ 1000 ∧ 1 ≤ BayPolicy.initial.exchangeTimeout
      ∧ BayPolicy.initial.exchangeTimeout ≤ 255 ∧ BayPolicy.initial.pollOverride < 2 ^ 16 := by decide +kernel

/-- Group 15 is none, index 32 of APERTURE is none, group 8 is read-only, a GRANT record of 7 words is too short, and actions 0 and 11 are none. -/
theorem witness_RequestThatNamesNothingIsBadRecord :
    (∀ r ∈ [ctlRead 15 0, ctlRead 1 32], (asks r rack).nextTaken = some (taken r) ∧ commandServes .ctlRead r = true ∧ ¬ r.NamesRecord)
      ∧ (∀ p ∈ [(Instr.ctlWriteOtherGroup, ctlWrite 8 0 [0]), (.ctlWriteGrant, ctlWrite 3 0 (List.replicate 7 0))],
        (asks p.2 rack).nextTaken = some (taken p.2) ∧ commandServes p.1 p.2 = true ∧ ¬ p.2.CarriesRecord)
      ∧ (∀ c ∈ [0, 11], (asks (action c) rack).nextTaken = some (taken (action c)) ∧ commandServes .bayActionUnknown (action c) = true
        ∧ ((action c).action = 0 ∨ 10 < (action c).action))
      ∧ rack.tables.domains[(0 : DomainId)].enabled = true ∧ rack.tables.domains[(0 : DomainId)].level = 0 := by
  simp only [Request.NamesRecord, Request.CarriesRecord]
  decide +kernel

/-- Domain 0 of the rack is enabled, at level 0. -/
theorem takes_level0 : rack.tables.domains[(0 : DomainId)].enabled = true ∧ rack.tables.domains[(0 : DomainId)].level = 0 := by decide +kernel

/-- A CTL_WRITE that reaches its group. -/
theorem takes_write (g i : Nat) (payload : List Word)
    (h : (asks (ctlWrite g i payload) rack).nextTaken = some (taken (ctlWrite g i payload)) ∧ (ctlWrite g i payload).group = g ∧ (ctlWrite g i payload).index = i := by decide +kernel) :
    (asks (ctlWrite g i payload) rack).TakesWrite (taken (ctlWrite g i payload)) g i :=
  ⟨h.1, rfl, h.2.1, h.2.2, takes_level0.1, takes_level0.2⟩

/-- Record 31: cleared, one page at the end of the module memory space, and one beyond it. -/
theorem witness_ApertureWriteReplacesRecord :
    (asks (ctlWrite 1 31 [0, 0, 0, 0]) rack).TakesWrite (taken (ctlWrite 1 31 [0, 0, 0, 0])) 1 31 ∧ bits 0 0 1 = 0
      ∧ (asks (ctlWrite 1 31 [0, 0xFFF, 0x0FFFF000, 1]) rack).TakesWrite (taken (ctlWrite 1 31 [0, 0xFFF, 0x0FFFF000, 1])) 1 31 ∧ bits 1 0 1 = 1
      ∧ apertureFits 0 0xFFF 0x0FFFF000 1 ∧ ¬ apertureFits 0 0xFFF 0x10000000 1 := by
  refine ⟨takes_write 1 31 _, by decide, takes_write 1 31 _, by decide, ?_, ?_⟩ <;> (unfold apertureFits; decide)

theorem witness_GrantAndDescriptorWritesReplaceRecords :
    (asks (ctlWrite 3 63 (#v[0, 0, 0, 0, 8, 0, 0, 0] : Vector Word 8).toList) rack).TakesWrite
        (taken (ctlWrite 3 63 (#v[0, 0, 0, 0, 8, 0, 0, 0] : Vector Word 8).toList)) 3 63
      ∧ (asks (ctlWrite 5 255 [0x33, 0xA0]) rack).TakesWrite (taken (ctlWrite 5 255 [0x33, 0xA0])) 5 255
      ∧ (asks (ctlWrite 6 0 [256]) rack).TakesWrite (taken (ctlWrite 6 0 [256])) 6 0 ∧ (256 : Word).toNat ≤ 256
      ∧ (asks (ctlWrite 6 0 [257]) rack).TakesWrite (taken (ctlWrite 6 0 [257])) 6 0 ∧ 256 < (257 : Word).toNat :=
  ⟨takes_write 3 63 _, takes_write 5 255 _, takes_write 6 0 _, by decide, takes_write 6 0 _, by decide⟩

theorem witness_DomainAndRouteWritesReplaceRecords :
    (asks (ctlWrite 2 7 [0x21]) rack).TakesWrite (taken (ctlWrite 2 7 [0x21])) 2 7 ∧ (asks (ctlWrite 4 63 [0xFF]) rack).TakesWrite (taken (ctlWrite 4 63 [0xFF])) 4 63
      ∧ (asks (ctlWrite 4 64 [0xFF]) rack).TakesWrite (taken (ctlWrite 4 64 [0xFF])) 4 64 :=
  ⟨takes_write 2 7 _, takes_write 4 63 _, takes_write 4 64 _⟩

/-- Ready timeouts 1 and 1000 are in range, 0 and 1001 are not, and an exchange timeout of 0 is not. -/
theorem witness_BayPolicyWriteReplacesRecord :
    (asks (ctlWrite 7 7 [0x00010010, 0]) rack).TakesWrite (taken (ctlWrite 7 7 [0x00010010, 0])) 7 7
      ∧ (asks (ctlWrite 7 7 [0x00010010, 0]) rack).Signalled
      ∧ bits 0x00010010 4 10 = 1 ∧ bits 0x00010010 16 8 = 1 ∧ bits 0x00FF3E80 4 10 = 1000 ∧ bits 0x00FF3E80 16 8 = 255
      ∧ bits 0x00010000 4 10 = 0 ∧ bits 0x00013E90 4 10 = 1001 ∧ bits 0x00003E80 16 8 = 0 :=
  ⟨takes_write 7 7 _, signalled_of_noLatch (by decide +kernel) (by decide +kernel), by decide +kernel⟩

/-! #### Bay actions on bay 3 -/

/-- A BAY_ACTION that reaches bay 3, whatever stands there. -/
theorem takes_action (c : Nat) (y : Bay)
    (h : (asks (action c) (seat 3 y rack)).nextTaken = some (taken (action c)) ∧ (action c).action = c ∧ (action c).actionBay = 3 := by decide +kernel) :
    (asks (action c) (seat 3 y rack)).TakesAction (taken (action c)) c ∧ (taken (action c)).request.actionBay = 3 :=
  ⟨⟨h.1, rfl, h.2.1, takes_level0.1, takes_level0.2⟩, h.2.2⟩

/-- Every bay state. -/
def allStates : List BayState :=
  [.empty, .seating, .unpowered, .powering, .held, .starting, .identifying, .online, .parking, .parked, .waking, .draining, .faulted]

/-- Each action reaches bay 3, in each bay state with a sound bay. -/
theorem witness_bayActions :
    ∀ st ∈ allStates, ∀ c ∈ [1, 2, 3, 4, 5, 6, 7, 8, 9, 10],
      (asks (action c) (seat 3 (stood st) rack)).TakesAction (taken (action c)) c ∧ (taken (action c)).request.actionBay = 3
        ∧ (asks (action c) (seat 3 (stood st) rack)).BaysSound ∧ (stood st).state = st := by
  have h : ∀ st ∈ allStates, ∀ c ∈ [1, 2, 3, 4, 5, 6, 7, 8, 9, 10],
      ((asks (action c) (seat 3 (stood st) rack)).nextTaken = some (taken (action c)) ∧ (action c).action = c ∧ (action c).actionBay = 3)
        ∧ bayCheck (stood st) = true := by decide +kernel
  intro st hs c hc
  exact ⟨(takes_action c _ (h st hs c hc).1).1, (h st hs c hc).1.2.2, seat_baysSound 3 (bay_sound _ (h st hs c hc).2), rfl⟩

/-- A bay asked to drain in its park. -/
def asked (st : BayState) : Bay := { stood st with drainRequested := true }

theorem witness_PowerOnActsByState : (asks (action 1) (seat 3 (asked .waking) rack)).TakesAction (taken (action 1)) 1 ∧ (asked .waking).Sound ∧ (asked .waking).drainRequested = true :=
  ⟨(takes_action 1 _).1, bay_sound _, rfl⟩

/-- A lane OPEN with a page, its dwell running. -/
def openLane : Lane := { Lane.shut with state := .opened, page := some 1, dwellTimer := some 5 }
/-- An ONLINE bay with lane 3 OPEN. -/
def opened : Bay := { stood .online with lanes := (Vector.replicate 4 Lane.shut).set 3 openLane }
/-- A PARKED bay at depth DEEP whose module wakes in `n` µs. -/
def parkedDeep (n : Nat) : Bay := { stood .parked with depth := some .deep, identity := some (identityOfBytes (idBytes 3 512 5 10 n)) }

theorem witness_PowerOffActsByState :
    (opened.Sound ∧ opened.queue = [] ∧ opened.lanes[(3 : LaneId)].state ≠ .closed) ∧ (stood .online).AllClosed
      ∧ { stood .online with queue := [1] }.Sound
      ∧ ((stood .parked).Sound ∧ (stood .parked).depth = some .light) ∧ (parkedDeep 20).Sound ∧ (parkedDeep 0).Sound
      ∧ (parkedDeep 20).identity.map idDeepWake = some 20 ∧ (parkedDeep 0).identity.map idDeepWake = some 0
      ∧ (parkedDeep 0).AllClosed
      ∧ ({ parkedDeep 0 with lanes := (parkedDeep 0).lanes.set 3 openLane }.Sound ∧ ¬ { parkedDeep 0 with lanes := (parkedDeep 0).lanes.set 3 openLane }.AllClosed) := by
  refine ⟨⟨bay_sound _, rfl, by decide +kernel⟩, ?_, bay_sound _, ⟨bay_sound _, rfl⟩, bay_sound _, bay_sound _, by decide +kernel, by decide +kernel, ?_, bay_sound _, ?_⟩ <;>
    (unfold Bay.AllClosed; decide +kernel)

theorem witness_ParkActsOnIdleBay :
    (stood .online).LightParkOver ∧ (stood .online).AllClosed ∧ { stood .online with owed := 8 }.Sound
      ∧ { stood .online with owed := 8, identity := some (identityOfBytes (idBytes 3 512 5 10 0)) }.Sound
      ∧ { opened with lanes := opened.lanes.set 3 { openLane with releasePending := true } }.Sound
      ∧ ¬ { opened with lanes := opened.lanes.set 3 { openLane with releasePending := true } }.LightParkOver := by
  refine ⟨?_, ?_, bay_sound _, bay_sound _, bay_sound _, ?_⟩
  · unfold Bay.LightParkOver; decide +kernel
  · unfold Bay.AllClosed; decide +kernel
  · unfold Bay.LightParkOver; decide +kernel

theorem witness_WakeActsByState : (parkedDeep 20).Sound ∧ (parkedDeep 0).Sound ∧ (stood .parked).depth = some .light ∧ (parkedDeep 0).depth = some .deep :=
  ⟨bay_sound _, bay_sound _, rfl, rfl⟩

theorem witness_ResetActsByState : (asks (action 5) (seat 3 (stood .waking) rack)).WorkSound ∧ (stood .waking).state = .waking ∧ (stood .draining).state = .draining :=
  ⟨work_sound _, rfl, rfl⟩

/-- Bay 2 with, in its queue, a READ, a posted WRITE with its response ready, one without, and a READ marked discard; and a READ HELD for it. -/
def crowded : State :=
  files 4 { entryOf (data .read 0 4 0x40000000 []) 0 .held with tag := 8 }
    (files 3 { entryOf { data .blockRead 1 4 0x40000000 [] with count := 4, stride := .increment } 0 .queued with discard := true }
      (files 2 { entryOf (data .write 0 4 0x40000000 [1]) 0 .queued with posted := true, seq := some 0 }
        (files 1 { entryOf (data .write 0 4 0x40000000 [1]) 0 .queued with posted := true, response := some okResponse, seq := some 1 }
          (files 0 (entryOf (data .read 2 4 0x40000000 []) 0 .queued) rack))))

theorem witness_BayAbortEndsItsQueue :
    crowded.WorkSound ∧ crowded.bays[(2 : BayId)].queue = [0, 1, 2, 3]
      ∧ (crowded.tracker.entries[(0 : EntryId)].posted = false ∧ crowded.tracker.entries[(0 : EntryId)].discard = false)
      ∧ (crowded.tracker.entries[(1 : EntryId)].posted = true ∧ crowded.tracker.entries[(1 : EntryId)].response.isSome = true)
      ∧ (crowded.tracker.entries[(2 : EntryId)].posted = true ∧ crowded.tracker.entries[(2 : EntryId)].response = none)
      ∧ (crowded.tracker.entries[(3 : EntryId)].posted = false ∧ crowded.tracker.entries[(3 : EntryId)].discard = true)
      ∧ crowded.tracker.entries[(4 : EntryId)].state = .held ∧ FaultCause.moduleNotReady ≠ .none := by
  refine ⟨work_sound _, ?_⟩
  decide +kernel

theorem witness_EntryEndIsReported : crowded.WorkSound ∧ ∀ e ∈ [(0 : EntryId), 1, 2, 3], e ∈ crowded.bays[(2 : BayId)].queue :=
  ⟨work_sound _, by decide +kernel⟩

/-- A bay whose POLL is the third exchange in a row to go unanswered, if it does. -/
def lastChance : Bay := { stood .online with owed := 1, timeouts := 2, exchange := some { op := .poll, timeout := 64 } }

theorem witness_CaptureKeepsFirstOfferUntilCleared :
    rack.capture = none ∧ (rack.offer { kind := .runtPacket, who := none, bay := none, xlat := none }).capture.isSome = true
      ∧ exec .linkGained (rack.offer { kind := .runtPacket, who := none, bay := none, xlat := none })
        = .next (rack.offer { kind := .runtPacket, who := none, bay := none, xlat := none })
      ∧ (seat 3 lastChance rack).bays[(3 : BayId)].exchange = some { op := .poll, timeout := 64 } ∧ lastChance.timeouts = 2 ∧ lastChance.queue = [] ∧ lastChance.Sound :=
  ⟨rfl, rfl, rfl, by decide +kernel, rfl, rfl, bay_sound _⟩

/-! #### The bay bus -/

/-- A lane whose deferred release may be issued. -/
def dueLane : Lane := { Lane.shut with state := .opened, page := some 1, dwellExpired := true, releasePending := true }

/-- A forced run that begins and one that goes on; lanes 2 and 3 due with none below; an idle bay that owes a poll, and one that does not; a bay in PARKING with work; each with its decision point due. -/
theorem witness_PollsAndReleasesAtDecisionPoint :
    (∀ y ∈ [{ stood .online with due := true, owed := 8 }, { stood .online with due := true, owed := 1, forced := true },
        { stood .online with due := true, lanes := ((Vector.replicate 4 Lane.shut).set 2 dueLane).set 3 dueLane }, { stood .online with due := true, owed := 7 },
        { stood .online with due := true }, { stood .parking with due := true, queue := [0] }],
        y.Sound ∧ (y.state = .online ∨ y.state = .parking) ∧ y.exchange = none ∧ y.unit = none ∧ y.due = true)
      ∧ (stood .parked).Sound ∧ ¬ (stood .parked).BusFree ∧ (stood .online).Sound ∧ (stood .online).due = false := by
  refine ⟨?_, bay_sound _, ?_, bay_sound _, rfl⟩
  · intro y hy
    simp only [List.mem_cons, List.not_mem_nil, or_false] at hy
    rcases hy with rfl | rfl | rfl | rfl | rfl | rfl <;> exact ⟨bay_sound _, by decide +kernel, rfl, rfl, rfl⟩
  · unfold Bay.BusFree; decide +kernel

/-- A block of domain 1 at its first interjection point, in state `st`, before a READ of domain `d`, the decision point due. -/
def blocks (st : EntryState) (d : DomainId) : State :=
  (files 1 (entryOf (data .read d 4 0x40000000 []) 0 .queued)
    (files 0 { entryOf { data .blockRead 1 8 0x40003F00 [] with count := 70, stride := .increment } 0 st with unitsDone := 32 } rack)).mapBay 2 Bay.callArbiter

/-- The READ is a candidate where it is of another domain; the block may be SUSPENDED; and a READ alone is QUEUED. -/
theorem witness_DecisionPointServesEntries :
    (blocks .running 2).bays[(2 : BayId)].queue = [] ++ 0 :: [1] ∧ (blocks .running 2).tracker.entries[(0 : EntryId)].AtInterjection
      ∧ (blocks .running 2).tracker.Candidate 0 [0] 1 ∧ ¬ (blocks .running 1).tracker.Candidate 0 [0] 1
      ∧ (blocks .suspended 2).tracker.entries[(0 : EntryId)].state = .suspended
      ∧ reading.bays[(2 : BayId)].queue = [] ++ 0 :: [] ∧ reading.tracker.entries[(0 : EntryId)].state = .queued
      ∧ (blocks .running 2).bays[(2 : BayId)].BusFree ∧ (blocks .running 2).bays[(2 : BayId)].due = true ∧ ¬ (blocks .running 2).bays[(2 : BayId)].ForcedRun
      ∧ ∀ l : LaneId, ¬ (blocks .running 2).bays[(2 : BayId)].Releasable l := by
  simp only [Entry.AtInterjection, Tracker.Candidate, Bay.BusFree, Bay.ForcedRun, Bay.Releasable]
  decide +kernel

/-- Bay 2 with lane 1 as given, where the READ of page 385 waits. -/
def readingAt (ln : Lane) : State := reading.mapBay 2 fun y => { y with lanes := y.lanes.set 1 ln }

/-- An aux-gated WRITE without its rail, an entry marked discard, a PORT unit, and the lane of a MEMORY unit in each state. -/
theorem witness_UnitBeginsByItsChecks :
    let gated := { entryOf (data .write 3 1 0x60000233 [0x5A]) 2 .queued with posted := true }
    gated.xlat = some (copy (data .write 3 1 0x60000233 [0x5A]) 2) ∧ (copy (data .write 3 1 0x60000233 [0x5A]) 2).auxGated = true
      ∧ (copy (data .write 3 1 0x60000233 [0x5A]) 2).kind = .port
      ∧ (files 0 gated (seat 5 (stood .online) rack)).bays[(5 : BayId)].auxRail = false ∧ (files 0 gated rack).bays[(5 : BayId)].auxRail = true
      ∧ crowded.tracker.entries[(3 : EntryId)].discard = true
      ∧ reading.tracker.entries[(0 : EntryId)].xlat = some (copy (data .read 1 8 0x40081FF8 []) 0) ∧ reading.bays[(2 : BayId)].laneCount = 3
      ∧ (copy (data .read 1 8 0x40081FF8 []) 0).addr / 4096 = 385 ∧ 385 % 3 % 4 = 1
      ∧ ∀ ln ∈ [Lane.shut, { Lane.shut with state := .closing, recoveryTimer := some 10 }, { openLane with page := some 385 },
          { openLane with dwellTimer := none, dwellExpired := true }, openLane],
        (readingAt ln).bays[(2 : BayId)].lanes[(1 : LaneId)] = ln := by decide +kernel

/-- A unit as wide as two exchanges, in each space, and one narrower than its exchange. -/
theorem witness_UnitExchangesPlaceBytes :
    let wide : UnitRun := { readUnit 0 [] with value := [1, 2, 3, 4, 5, 6, 7, 8] }
    let narrow : UnitRun := { readUnit 0 [] with addr := 0x833, size := 1, width := .w16, place := none, value := [0x5A] }
    wide.size ∣ wide.addr ∧ wide.value.length = wide.size ∧ wide.width.bytes ≤ wide.size ∧ wide.place.isSome = true
      ∧ narrow.size ∣ narrow.addr ∧ narrow.value.length = narrow.size ∧ narrow.size < narrow.width.bytes := by decide +kernel

/-- The unit of the READ in phase `ph`. -/
def phased (ph : UnitPhase) : State := busy (entryOf (data .read 1 8 0x40081FF8 []) 0 .running) { readUnit 0 [] with phase := ph } (.select 1 385)

theorem witness_LanePreparationAnswers :
    (∀ ph ∈ [UnitPhase.selecting, .releasing], (phased ph).bays[(2 : BayId)].exchange = some { op := .select 1 385, timeout := 64 }
        ∧ (phased ph).bays[(2 : BayId)].unit = some { readUnit 0 [] with phase := ph })
      ∧ (phased .releasing).bays[(2 : BayId)].recovery ≠ 0
      ∧ ((phased .releasing).mapBay 2 fun y => { y with identity := some (identityOfBytes (idBytes 3 512 5 0 20)) }).bays[(2 : BayId)].recovery = 0 := by decide +kernel

/-- The first and the last exchange of a READ's unit, and the last of a WRITE's; a block at its last unit, and one before it; and a FETCH_ADD. -/
theorem witness_DataExchangeAnswers :
    let r := entryOf (data .read 1 8 0x40081FF8 []) 0 .running
    let w := entryOf (data .write 1 8 0x40081FF8 [1, 2]) 0 .running
    let f := entryOf (data .fetchAdd 1 8 0x40081FF8 [1, 2]) 0 .running
    let k := { entryOf { data .blockRead 1 8 0x40081FF8 [] with count := 2, stride := .increment } 0 .running with unitsDone := 1 }
    (∀ j ∈ [0, 1], (busy r (readUnit j []) (.mread 0x181FF8 .w32)).bays[(2 : BayId)].unit = some (readUnit j []))
      ∧ exchangeCount 8 .w32 = 2
      ∧ (busy w { readUnit 1 [] with dir := .write, phase := .writing 1 } (.mread 0x181FF8 .w32)).tracker.entries[(0 : EntryId)].kind = .write
      ∧ (busy f { readUnit 1 [] with dir := .fetchAdd } (.mread 0x181FF8 .w32)).tracker.entries[(0 : EntryId)].kind = .fetchAdd
      ∧ (k.unitsDone + 1 = k.count ∧ { k with unitsDone := 0 }.unitsDone + 1 ≠ k.count ∧ k.discard = false) := by decide +kernel

/-- A POLL in progress on a bay whose last status word is zero, and a deferred RELEASE. -/
theorem witness_PollAndReleaseAnswers :
    rack.bays[(2 : BayId)].exchange = none
      ∧ (seat 3 lastChance rack).bays[(3 : BayId)].exchange = some { op := .poll, timeout := 64 } ∧ (seat 3 lastChance rack).bays[(3 : BayId)].state = .online
      ∧ readyWord.ready = true ∧ zeroStatus.ready = false
      ∧ (seat 3 { lastChance with exchange := some { op := .release 3, timeout := 64 } } rack).bays[(3 : BayId)].exchange = some { op := .release 3, timeout := 64 }
      ∧ (seat 3 { lastChance with exchange := some { op := .release 3, timeout := 64 } } rack).bays[(3 : BayId)].unit = none := by decide +kernel

/-- The same, and a unit's exchange; two timeouts have gone before, or none. -/
theorem witness_ExchangeTimeoutEndsExchange :
    lastTimeout.WorkSound ∧ lastTimeout.bays[(2 : BayId)].timeouts + 1 = 3
      ∧ rack.bays[(2 : BayId)].exchange = none ∧ lastChance.timeouts + 1 = 3 ∧ (phased .selecting).bays[(2 : BayId)].timeouts + 1 < 3
      ∧ (seat 3 lastChance rack).bays[(3 : BayId)].exchange.map (·.op) = some .poll
      ∧ (phased .selecting).bays[(2 : BayId)].exchange.map (·.op) = some (.select 1 385) ∧ (phased .selecting).bays[(2 : BayId)].unit.isSome = true :=
  ⟨work_sound _, by decide +kernel⟩

/-- An OPEN lane with its dwell running and a CLOSING one with its recovery running, with and without a unit that waits for it; a poll timer at 7 and at 8 owed polls; and WAKING with and without a drain requested. -/
theorem witness_TimersInService :
    (reading.bays[(2 : BayId)].lanes[(1 : LaneId)].state ≠ .opened ∧ reading.bays[(2 : BayId)].pollTimer.isSome = true ∧ rack.bays[(3 : BayId)].pollTimer = none
        ∧ (readingAt openLane).bays[(2 : BayId)].lanes[(1 : LaneId)] = openLane
        ∧ (phased .awaitDwell).bays[(2 : BayId)].unit.map (·.phase) = some .awaitDwell ∧ (phased .awaitDwell).bays[(2 : BayId)].lanes[(1 : LaneId)].dwellTimer = some 5
        ∧ (phased .awaitRecovery).bays[(2 : BayId)].unit.map (·.phase) = some .awaitRecovery
        ∧ (readingAt { Lane.shut with state := .closing, recoveryTimer := some 10 }).bays[(2 : BayId)].lanes[(1 : LaneId)].recoveryTimer = some 10)
      ∧ (∀ y ∈ [{ stood .online with owed := 7 }, { stood .parked with owed := 7 }, { stood .online with owed := 8 }, { parkedDeep 20 with owed := 7 },
          { parkedDeep 0 with owed := 7 }, stood .waking, asked .waking], y.Sound)
      ∧ (stood .waking).timer.isSome = true
      ∧ ((stood .parking).Sound ∧ ¬ (stood .parking).ParkOver ∧ (stood .parking).unit = none)
      ∧ { stood .parking with lanes := Vector.replicate 4 Lane.shut }.ParkOver := by
  refine ⟨by decide +kernel, ?_, rfl, ⟨bay_sound _, ?_, rfl⟩, ?_⟩
  · intro y hy
    simp only [List.mem_cons, List.not_mem_nil, or_false] at hy
    rcases hy with rfl | rfl | rfl | rfl | rfl | rfl | rfl <;> exact bay_sound _
  · unfold Bay.ParkOver Bay.LightParkOver Bay.AllClosed; decide +kernel
  · unfold Bay.ParkOver Bay.LightParkOver Bay.AllClosed; decide +kernel

/-! #### The life of a module -/

/-- An EMPTY bay with one contact made, a SEATING bay, and one in service; the contacts of the last two are made. -/
theorem witness_PresenceContactsSeatAndRemove :
    ({ stood .empty with contactFirst := true }.Sound ∧ { stood .empty with contactFirst := true }.contactSecond = false)
      ∧ ((stood .seating).Sound ∧ (stood .seating).contactFirst = true) ∧ (stood .online).Sound ∧ (stood .online).contactFirst = true :=
  ⟨⟨bay_sound _, rfl⟩, ⟨bay_sound _, rfl⟩, bay_sound _, rfl⟩

/-- A sound bay in every state, under MANUAL and AUTO, with its inputs low and high. -/
theorem witness_BringUpFollowsTimersAndInputs :
    ∀ st ∈ allStates, (stood st).Sound ∧ { stood st with policy := { BayPolicy.initial with power := .auto }, railGood := st != BayState.faulted, moduleReady := true }.Sound := by
  have h : ∀ st ∈ allStates, bayCheck (stood st) = true
      ∧ bayCheck { stood st with policy := { BayPolicy.initial with power := .auto }, railGood := st != BayState.faulted, moduleReady := true } = true := by decide +kernel
  exact fun st hs => ⟨bay_sound _ (h st hs).1, bay_sound _ (h st hs).2⟩

theorem witness_IdentityReadBringsBayOnline :
    (stood .identifying).Sound ∧ (idBytes 4 512 5 10 20).length = 32 ∧ 256 ∣ ((idBytes 4 512 5 10 20).map BitVec.toNat).sum
      ∧ ((idBytes 4 512 5 10 20).getD 0 0).toNat = 1 ∧ ((idBytes 4 512 5 10 20).getD 4 0).toNat = 4
      ∧ (List.replicate 32 (1 : Byte)).length = 32 ∧ ¬ 256 ∣ ((List.replicate 32 (1 : Byte)).map BitVec.toNat).sum := by
  refine ⟨bay_sound _, ?_⟩
  decide +kernel

/-! #### The invariants -/

/-- The rack with work, before a step of it. -/
def stepping : State := { crowded with pending := [.linkGained] }

/-- A state that meets every invariant, and a step of it (for UplinkAndAperturesStayBounded, TrackerStaysInOrder, WorkStaysSound, BaysStaySound, EventUnitKeepsItsBooks). -/
theorem witness_invariants :
    step stepping = .next crowded ∧ stepping.WorkSound ∧ stepping.tracker.Examined ∧ stepping.BaysSound ∧ stepping.tracker.InOrder ∧ stepping.uplink.Bounded ∧ stepping.tables.AperturesSound
      ∧ stepping.Signalled ∧ stepping.events.NoticesSignalled ∧ stepping.events.Nested ∧ stepping.events.Marked := by
  refine ⟨rfl, work_sound _, ?_, ?_, ⟨(work_sound stepping).1, ?_⟩, ?_, ?_, signalled_of_noLatch (by decide +kernel) (by decide +kernel), ?_, ?_, ?_, ?_, ?_⟩
  · have hw : ∀ e ∈ stepping.tracker.taken, stepping.tracker.entries[e].state ≠ .waiting := by decide +kernel
    have hh : ∀ e ∈ stepping.tracker.taken, stepping.tracker.entries[e].state = .held → stepping.tracker.entries[e].posted = false
        ∧ stepping.tracker.entries[e].xlat.all (·.ordering == .strict) = true ∧ stepping.tracker.earlierPosted e = true := by decide +kernel
    refine fun d => ⟨fun e he hs => absurd hs (hw e he), fun e he hs _ x hx _ => ⟨(hh e he hs).1, ?_, (hh e he hs).2.2⟩⟩
    have := (hh e he hs).2.1
    rw [hx] at this
    simpa only [Option.all_some, beq_iff_eq] using this
  · have h : ∀ b : BayId, bayCheck stepping.bays[b] = true := by decide +kernel
    exact fun b => bay_sound _ (h b)
  · intro e he ha hp x hx ho
    have h : ∀ e ∈ stepping.tracker.taken, stepping.tracker.entries[e].state.atBay = true → stepping.tracker.entries[e].posted = false →
        stepping.tracker.earlierPosted e = false := by decide +kernel
    exact h e he ha hp
  · simp only [Uplink.Bounded, Request.Formed]; decide +kernel
  · unfold AdmissionUnit.AperturesSound; decide +kernel
  · unfold EventUnit.NoticesSignalled; decide +kernel
  · unfold EventUnit.Nested; decide +kernel
  · intro it
    have h : ∀ d : DomainId, stepping.events.delivery[d].inService = [] := by decide +kernel
    have ha : stepping.events.bayActive = Vector.replicate 64 false ∧ stepping.events.msgActive = Vector.replicate 32 false := by decide +kernel
    have hf : stepping.events.isActive it = false := by cases it <;> simp [EventUnit.isActive, ha.1, ha.2]
    rw [hf]
    constructor
    · intro h; cases h
    · intro hs
      obtain ⟨d, x, hx, _⟩ := hs
      rw [h d] at hx; cases hx
  · intro d e it hs _
    obtain ⟨x, hx, _⟩ := hs
    have h : ∀ d : DomainId, stepping.events.delivery[d].inService = [] := by decide +kernel
    rw [h d] at hx; cases hx
  · decide +kernel

end Sys2Proof.Tests
end

/-! The lookup and the span of a data request (1.2): the match as a minimum over the record numbers, the rows of Table 1-3, and what the first failing check says about the span check. -/

namespace Sys2Proof.Machine

/-! ### Lookup (R6) -/

/-- The three conditions of R6, spelled out. -/
theorem Aperture.matches_iff (a : Aperture) (d : DomainId) (b : Nat) :
    a.matches d b = true ↔ a.valid = true ∧ a.first.toNat ≤ b ∧ b ≤ a.last.toNat ∧ a.mask.getLsbD d = true := by
  simp only [Aperture.matches, Bool.and_eq_true, decide_eq_true_eq, and_assoc]

/-- A search through `0, 1, …, n - 1` in that order finds the least number that passes. -/
theorem find?_finRange_eq_some_iff {n : Nat} (p : Fin n → Bool) (i : Fin n) :
    (List.finRange n).find? p = some i ↔ p i = true ∧ ∀ j < i, ¬ p j = true := by
  rw [List.find?_eq_some_iff_getElem]
  constructor
  · rintro ⟨hi, k, hk, hki, hbefore⟩
    have hval : k = i.val := by rw [← hki, List.getElem_finRange]; rfl
    refine ⟨hi, fun j hj => ?_⟩
    have hj' := hbefore j.val (hval ▸ hj)
    rw [List.getElem_finRange, Bool.not_eq_true'] at hj'
    exact Bool.eq_false_iff.1 hj'
  · rintro ⟨hi, hbefore⟩
    refine ⟨hi, i.val, by rw [List.length_finRange]; exact i.isLt, List.getElem_finRange _, fun k hk => ?_⟩
    rw [List.getElem_finRange, Bool.not_eq_true']
    exact Bool.eq_false_iff.2 (hbefore ⟨k, Nat.lt_trans hk i.isLt⟩ hk)

theorem lookup_eq_some_iff (table : Vector Aperture 32) (r : Request) (i : Fin 32) :
    lookup table r = some i ↔
      table[i].matches r.domain r.word1.toNat = true ∧ ∀ j < i, ¬ table[j].matches r.domain r.word1.toNat = true :=
  find?_finRange_eq_some_iff (fun k => table[k].matches r.domain r.word1.toNat) i

theorem lookup_eq_none_iff (table : Vector Aperture 32) (r : Request) :
    lookup table r = none ↔ ∀ i : Fin 32, ¬ table[i].matches r.domain r.word1.toNat = true :=
  List.find?_eq_none.trans ⟨fun h i => h i (List.mem_finRange i), fun h i _ => h i⟩

/-! ### Span (Table 1-3) -/

theorem ReqKind.isBlock_iff (k : ReqKind) : k.isBlock = true ↔ k = .blockRead ∨ k = .blockWrite := by
  cases k <;> simp [ReqKind.isBlock]

/-- Only a DECREMENT block reaches below its header address. -/
theorem spanLow_eq_address (r : Request) (h : r.kind.isBlock = true → r.stride ≠ .decrement) : spanLow r = r.word1.toNat := by
  refine if_neg fun hd => ?_
  obtain ⟨hb, hs⟩ := Bool.and_eq_true_iff.1 hd
  exact h hb (beq_iff_eq.1 hs)

theorem spanLow_of_decrement (r : Request) (hb : r.kind.isBlock = true) (hs : r.stride = .decrement) :
    spanLow r = (r.word1.toNat : Int) - ((r.count : Int) - 1) * r.size :=
  if_pos (by simp [hb, hs])

/-- Only an INCREMENT block reaches beyond its first unit. -/
theorem spanHigh_eq_unitEnd (r : Request) (h : r.kind.isBlock = true → r.stride ≠ .increment) :
    spanHigh r = (r.word1.toNat : Int) + r.size - 1 := by
  refine if_neg fun hi => ?_
  obtain ⟨hb, hs⟩ := Bool.and_eq_true_iff.1 hi
  exact h hb (beq_iff_eq.1 hs)

theorem spanHigh_of_increment (r : Request) (hb : r.kind.isBlock = true) (hs : r.stride = .increment) :
    spanHigh r = (r.word1.toNat : Int) + r.count * r.size - 1 :=
  if_pos (by simp [hb, hs])

theorem spanInside_iff (r : Request) (a : Aperture) :
    spanInside r a = true ↔ (a.first.toNat : Int) ≤ spanLow r ∧ spanHigh r ≤ a.last.toNat := by
  simp only [spanInside, Bool.and_eq_true, decide_eq_true_eq]

/-! ### The span check among the others (Table 2-4) -/

/-- A refusal status is the status of a check that fails. -/
theorem exists_failing_of_firstFailure {l : List (Bool × Status)} {st : Status} (h : firstFailure l = some st) :
    ∃ c ∈ l, c.1 = false ∧ c.2 = st := by
  induction l with
  | nil => cases h
  | cons c cs ih =>
    unfold firstFailure at h
    split at h
    · obtain ⟨x, hx, hfails⟩ := ih h
      exact ⟨x, List.mem_cons_of_mem c hx, hfails⟩
    · next hc => exact ⟨c, List.mem_cons_self, by simpa using hc, Option.some.inj h⟩

/-- With the domain enabled and a match found, the checks against the match decide a refusal. -/
theorem State.checkData_refused_iff {s : State} {r : Request} {i : Fin 32} (he : s.tables.domains[r.domain].enabled = true)
    (hl : lookup s.tables.apertures r = some i) (st : Status) :
    s.checkData r = .refused st ↔ firstFailure (s.dataChecks r s.tables.apertures[i]) = some st := by
  simp only [State.checkData, State.enabled, he, hl, Bool.not_true, Bool.false_eq_true, if_false]
  cases firstFailure (s.dataChecks r s.tables.apertures[i]) <;> simp

/-- Step 4 stands first among the checks against the match, and no later step has its status. -/
theorem firstFailure_dataChecks_eq_span_iff (s : State) (r : Request) (a : Aperture) :
    firstFailure (s.dataChecks r a) = some .span ↔ spanInside r a = false := by
  constructor
  · intro h
    obtain ⟨c, hc, hfails, hst⟩ := exists_failing_of_firstFailure h
    simp only [State.dataChecks, List.mem_cons, List.not_mem_nil, or_false] at hc
    rcases hc with rfl | rfl | rfl | rfl | rfl | rfl | rfl | rfl
    · exact hfails
    all_goals cases hst
  · intro h
    simp only [State.dataChecks, firstFailure, h, Bool.false_eq_true, if_false]

/-- A data request that has a match is refused SPAN exactly where its span leaves that match (R8). -/
theorem State.checkData_refused_span_iff {s : State} {r : Request} {i : Fin 32} (he : s.tables.domains[r.domain].enabled = true)
    (hl : lookup s.tables.apertures r = some i) :
    s.checkData r = .refused .span ↔ spanInside r s.tables.apertures[i] = false :=
  (State.checkData_refused_iff he hl .span).trans (firstFailure_dataChecks_eq_span_iff s r _)

/-! ### The obligations -/

/-- Settles O12: a lookup is the least record number at which the conditions of R6 hold. -/
theorem lookupFindsLowestMatch : Obligations.LookupFindsLowestMatch := by
  intro table r shows
  have hshows (i : Fin 32) : table[i].matches r.domain r.word1.toNat = true ↔ shows i := Aperture.matches_iff _ _ _
  simp only [lookup_eq_some_iff, lookup_eq_none_iff, hshows, implies_true, and_self]

/-- Settles O13: Table 1-3 row by row, and the span check as the first check against the match. -/
theorem spanFollowsTable : Obligations.SpanFollowsTable := by
  intro r a n z block
  have hblock : r.kind.isBlock = true ↔ block := r.kind.isBlock_iff
  refine ⟨fun hk => ?single, fun hk hs => ?increment, fun hk hs => ?hold, fun hk hs => ?decrement, fun s i he hl => ?check⟩
  case single =>
    have hb : r.kind.isBlock ≠ true := mt hblock.1 hk
    exact ⟨spanLow_eq_address r fun h => absurd h hb, spanHigh_eq_unitEnd r fun h => absurd h hb⟩
  case increment => exact ⟨spanLow_eq_address r fun _ => by simp [hs], spanHigh_of_increment r (hblock.2 hk) hs⟩
  case hold => exact ⟨spanLow_eq_address r fun _ => by simp [hs], spanHigh_eq_unitEnd r fun _ => by simp [hs]⟩
  case decrement => exact ⟨spanLow_of_decrement r (hblock.2 hk) hs, spanHigh_eq_unitEnd r fun _ => by simp [hs]⟩
  case check => rw [← spanInside_iff, ne_eq, State.checkData_refused_span_iff he hl, Bool.not_eq_false]

end Sys2Proof.Machine

/-! The admission arbiter (2.3): which request it takes next, as the first non-empty intake queue in round-robin order and the lowest free entry; and what each of its commands does to the intake queues and to the last-served domain, whatever the request and its outcome. -/

namespace Sys2Proof.Machine

/-! ### The arbiter's choice (R30 to R32) -/

theorem Tracker.lowestFree_eq_some_iff (t : Tracker) (e : EntryId) :
    t.lowestFree = some e ↔ t.entries[e].state = .free ∧ ∀ e' < e, t.entries[e'].state ≠ .free := by
  simp only [Tracker.lowestFree, find?_finRange_eq_some_iff, beq_iff_eq, ne_eq]

theorem Tracker.lowestFree_eq_none_iff (t : Tracker) : t.lowestFree = none ↔ ∀ e : EntryId, t.entries[e].state ≠ .free := by
  simp only [Tracker.lowestFree, List.find?_eq_none, List.mem_finRange, forall_const, beq_iff_eq, ne_eq]

/-- The domain at the distance of `d` from `base`, modulo 8, is `d`. -/
theorem domain_at_distance (base d : DomainId) : base + (d - base) = d := by
  revert base d; decide

theorem distance_of_domain (base k : DomainId) : base + k - base = k := by
  revert base k; decide

/-- The service order counts the domains up from the one after the last served, modulo 8. -/
theorem serviceOrder_eq_map (last : DomainId) : serviceOrder last = (List.finRange 8).map fun k => last + 1 + k := by
  revert last; decide

theorem mem_serviceOrder (last d : DomainId) : d ∈ serviceOrder last := by
  rw [serviceOrder_eq_map]
  exact List.mem_map.2 ⟨d - (last + 1), List.mem_finRange _, domain_at_distance _ _⟩

/-- A search in the service order finds the domain that passes at the least distance, modulo 8, from the one after the last served. -/
theorem find?_serviceOrder_eq_some_iff (p : DomainId → Bool) (last d : DomainId) :
    (serviceOrder last).find? p = some d ↔ p d = true ∧ ∀ d' : DomainId, d' - (last + 1) < d - (last + 1) → ¬ p d' = true := by
  rw [serviceOrder_eq_map, List.find?_map, Option.map_eq_some_iff]
  simp only [find?_finRange_eq_some_iff, Function.comp_apply]
  constructor
  · rintro ⟨k, ⟨hk, hbefore⟩, rfl⟩
    refine ⟨hk, fun d' hd' => ?_⟩
    rw [distance_of_domain] at hd'
    have h := hbefore _ hd'
    rwa [domain_at_distance] at h
  · rintro ⟨hd, hbefore⟩
    refine ⟨d - (last + 1), ⟨by rwa [domain_at_distance], fun k hk => hbefore _ ?_⟩, domain_at_distance _ _⟩
    rwa [distance_of_domain]

theorem State.servedDomain_eq_some_iff (s : State) (d : DomainId) :
    s.servedDomain = some d ↔ s.uplink.intake[d] ≠ []
      ∧ ∀ d' : DomainId, d' - (s.tables.lastServed + 1) < d - (s.tables.lastServed + 1) → s.uplink.intake[d'] = [] := by
  simp only [State.servedDomain, find?_serviceOrder_eq_some_iff, Bool.not_eq_true', List.isEmpty_eq_false_iff, ne_eq, Classical.not_not]

theorem State.servedDomain_eq_none_iff (s : State) : s.servedDomain = none ↔ ∀ d : DomainId, s.uplink.intake[d] = [] := by
  simp only [State.servedDomain, List.find?_eq_none, mem_serviceOrder, forall_const, Bool.not_eq_true', Bool.not_eq_false, List.isEmpty_iff]

/-- What is taken is the head of the served domain's queue, into the lowest free entry. -/
theorem State.nextTaken_of_head {s : State} {e : EntryId} {d : DomainId} {r : Request} {rest : List Request}
    (he : s.tracker.lowestFree = some e) (hd : s.servedDomain = some d) (hr : s.uplink.intake[d] = r :: rest) :
    s.nextTaken = some { domain := d, request := r, entry := e } := by
  simp only [State.nextTaken, he, hd, hr]

theorem State.nextTaken_eq_some_iff (s : State) (t : Taken) :
    s.nextTaken = some t ↔ s.tracker.lowestFree = some t.entry ∧ s.servedDomain = some t.domain
      ∧ ∃ rest, s.uplink.intake[t.domain] = t.request :: rest := by
  constructor
  · intro h
    unfold State.nextTaken at h
    split at h
    · next e d he hd =>
      split at h
      · next r rest hr => cases h; exact ⟨he, hd, rest, hr⟩
      · cases h
    · cases h
  · rintro ⟨he, hd, rest, hr⟩
    exact State.nextTaken_of_head he hd hr

/-- The arbiter takes nothing exactly where no entry is free or no queue can be served (R31): the queue it serves has a head. -/
theorem State.nextTaken_eq_none_iff (s : State) : s.nextTaken = none ↔ s.tracker.lowestFree = none ∨ s.servedDomain = none := by
  constructor
  · intro h
    cases he : s.tracker.lowestFree with
    | none => exact .inl rfl
    | some e =>
      cases hd : s.servedDomain with
      | none => exact .inr rfl
      | some d =>
        obtain ⟨r, rest, hr⟩ := List.exists_cons_of_ne_nil ((s.servedDomain_eq_some_iff d).1 hd).1
        rw [State.nextTaken_of_head he hd hr] at h
        cases h
  · intro h
    refine Option.eq_none_iff_forall_ne_some.2 fun t ht => ?_
    obtain ⟨he, hd, -⟩ := (s.nextTaken_eq_some_iff t).1 ht
    rcases h with h | h
    · rw [h] at he; cases he
    · rw [h] at hd; cases hd

/-! ### What leaves the uplink and the last-served domain alone -/

/-- From `s` to `u` nothing of the uplink has changed, nor the last-served domain. -/
structure State.TurnKept (s u : State) : Prop where
  uplink : u.uplink = s.uplink
  lastServed : u.tables.lastServed = s.tables.lastServed

namespace State.TurnKept

theorem refl (s : State) : s.TurnKept s := ⟨rfl, rfl⟩

variable {s u : State}

theorem congr {v : State} (h : s.TurnKept u) (hup : v.uplink = u.uplink) (hls : v.tables.lastServed = u.tables.lastServed) : s.TurnKept v :=
  ⟨hup.trans h.uplink, hls.trans h.lastServed⟩

theorem of_tables {v : State} (h : s.TurnKept u) (hup : v.uplink = u.uplink) (ht : v.tables = u.tables) : s.TurnKept v :=
  h.congr hup (by rw [ht])

/-- The tracker's shared operations leave the uplink and the last-served domain alone. -/
theorem workKept (s : State) : WorkKept s.TurnKept where
  tracker _ _ h := h.congr rfl rfl
  offer u o h := h.of_tables (u.offer_uplink o) (u.offer_tables o)
  latch u it h := h.of_tables (u.latch_uplink it) (u.latch_tables it)
  enqueue _ _ _ _ h := h.congr rfl rfl
  dequeue _ _ _ h := h.congr rfl rfl

theorem withEvents (ev : EventUnit) (h : s.TurnKept u) : s.TurnKept { u with events := ev } := h.congr rfl rfl

theorem mapDelivery (d : DomainId) (f : Delivery → Delivery) (h : s.TurnKept u) : s.TurnKept (u.mapDelivery d f) := h.congr rfl rfl

theorem reexamine (d : DomainId) (h : s.TurnKept u) : s.TurnKept (u.reexamine d) :=
  h.of_tables (u.reexamine_uplink d) (u.reexamine_tables d)

theorem reexamineAll (ds : List DomainId) (h : s.TurnKept u) : s.TurnKept (u.reexamineAll ds) :=
  h.of_tables (u.reexamineAll_uplink ds) (u.reexamineAll_tables ds)

theorem finish (t : Taken) (st : Status) (fill : Entry → Entry) (h : s.TurnKept u) : s.TurnKept (u.finish t st fill) :=
  (workKept s).finish t st fill u h

theorem finishWith (t : Taken) (st : Status) (h : s.TurnKept u) : s.TurnKept (u.finishWith t st) := h.finish t st id

/-! ### The effect of each command of the arbiter -/

theorem admission (t : Taken) (h : s.TurnKept u) : s.TurnKept (u.admission t) := (workKept s).admission t u h

theorem admitSync (t : Taken) (h : s.TurnKept u) : s.TurnKept (u.admitSync t) := by
  unfold State.admitSync
  split
  · exact (workKept s).examine _ _ _ ((workKept s).mapEntry _ _ u h)
  · exact h.finishWith t _

/-- A claim takes an item, whether its vector makes it DEFECT, puts it in service or hands it over (R148 to R150). -/
theorem claimItem (t : Taken) (d : DomainId) (it : Item) (h : s.TurnKept u) : s.TurnKept (u.claimItem t d it) := by
  have hcleared := h.withEvents (u.events.setPending it false)
  unfold State.claimItem
  dsimp only
  split
  · split
    · exact finish t _ _ (mapDelivery _ _ (hcleared.withEvents _))
    · exact hcleared.finish t _ _
  · exact finish t _ _ ((workKept s).offer _ _ hcleared)

theorem claimEffect (t : Taken) (h : s.TurnKept u) : s.TurnKept (u.claimEffect t) := by
  have hcleared : s.TurnKept (u.clearSignal t.request.domain) := h.mapDelivery _ _
  unfold State.claimEffect
  dsimp only
  refine reexamine _ ?_
  split
  · exact hcleared.finish t _ _
  · exact hcleared.claimItem t _ _

theorem completeEffect (t : Taken) (h : s.TurnKept u) : s.TurnKept (u.completeEffect t) := by
  unfold State.completeEffect
  dsimp only
  split
  · exact h.finishWith t _
  · exact reexamineAll _ (finish t _ _ (mapDelivery _ _ (h.withEvents _)))

theorem clearServiceEffect (t : Taken) (h : s.TurnKept u) : s.TurnKept (u.clearServiceEffect t) :=
  reexamineAll _ (finish t _ _ (mapDelivery _ _ (h.withEvents _)))

theorem thresholdEffect (t : Taken) (h : s.TurnKept u) : s.TurnKept (u.thresholdEffect t) :=
  reexamine _ (finish t _ _ (h.mapDelivery _ _))

theorem messageEffect (t : Taken) (h : s.TurnKept u) : s.TurnKept (u.messageEffect t) :=
  (foldl_kept (fun v _ hv => (workKept s).latch v _ hv) _ u h).finish t _ _

theorem messageChecked (t : Taken) (h : s.TurnKept u) : s.TurnKept (u.messageChecked t) := by
  unfold State.messageChecked
  dsimp only
  split
  · exact h.finishWith t _
  · split
    · exact h.messageEffect t
    · exact h.finishWith t _

theorem admitRead (t : Taken) (h : s.TurnKept u) : s.TurnKept (u.admitRead t) := by
  unfold State.admitRead
  split
  · split
    · exact h.finish t _ _
    · exact h.finishWith t _
  · exact h.finishWith t _

theorem withdraw (b : BayId) (k : Fin 8) (h : s.TurnKept u) : s.TurnKept (u.withdraw b k) := by
  unfold State.withdraw
  dsimp only
  split
  · exact (h.withEvents _).reexamine _
  · exact h

theorem resetBay (b : BayId) (h : s.TurnKept u) : s.TurnKept (u.resetBay b) := (workKept s).resetBay b u (h.congr rfl rfl)

theorem settle (b : BayId) (h : s.TurnKept u) : s.TurnKept (u.settle b) := h.congr rfl rfl

theorem settleAll (h : s.TurnKept u) : s.TurnKept u.settleAll := foldl_kept (fun _ b hv => hv.settle b) _ u h

end State.TurnKept

/-! ### What a CTL_WRITE or a BAY_ACTION applies -/

/-- What a CTL_WRITE or a BAY_ACTION applies, where its record or the bay's state lets it, leaves the uplink and the last-served domain alone. -/
def AppliesInTurn (apply : Request → State → Option State) : Prop := ∀ (r : Request) (s s' : State), apply r s = some s' → s.TurnKept s'

theorem appliesInTurn_none : AppliesInTurn fun _ _ => none := fun _ _ _ h => nomatch h

/-- A record of a form that its words must have is written where they have it. -/
theorem appliesInTurn_map {α : Type} {record : Request → Option α} {write : Request → State → α → State}
    (hw : ∀ (r : Request) (s : State) (x : α), s.TurnKept (write r s x)) : AppliesInTurn fun r s => (record r).map (write r s) := by
  intro r s s' h
  obtain ⟨x, -, rfl⟩ := Option.map_eq_some_iff.1 h
  exact hw r s x

theorem writeAperture_appliesInTurn : AppliesInTurn writeAperture := appliesInTurn_map fun _ _ _ => ⟨rfl, rfl⟩

theorem writeDomain_appliesInTurn : AppliesInTurn writeDomain := appliesInTurn_map fun r s x => by
  have hset (d : DomainId) : s.TurnKept { s with tables := { s.tables with domains := s.tables.domains.set d x } } := ⟨rfl, rfl⟩
  dsimp only
  split
  · exact hset _
  · exact (hset _).reexamine _

theorem writeGrant_appliesInTurn : AppliesInTurn writeGrant := appliesInTurn_map fun _ _ _ => ⟨rfl, rfl⟩

theorem writeRoute_appliesInTurn : AppliesInTurn writeRoute :=
  appliesInTurn_map fun _ s _ => ((State.TurnKept.refl s).withEvents _).reexamineAll _

theorem writeDescriptor_appliesInTurn : AppliesInTurn writeDescriptor := appliesInTurn_map fun _ _ _ => ⟨rfl, rfl⟩

theorem writeDescLimit_appliesInTurn : AppliesInTurn writeDescLimit := appliesInTurn_map fun _ _ _ => ⟨rfl, rfl⟩

theorem writeBayPolicy_appliesInTurn : AppliesInTurn writeBayPolicy :=
  appliesInTurn_map fun _ s _ => foldl_kept (P := s.TurnKept) (fun _ _ hv => hv.withdraw _ _) _ _ ⟨rfl, rfl⟩

theorem onBay_appliesInTurn (f : Bay → Option Bay) : AppliesInTurn (onBay f) := by
  intro r s s' h
  obtain ⟨b', -, rfl⟩ := Option.map_eq_some_iff.1 h
  exact ⟨rfl, rfl⟩

theorem actReset_appliesInTurn : AppliesInTurn actReset := by
  intro r s s' h
  unfold actReset at h
  split at h
  · cases h; exact (State.TurnKept.refl s).resetBay _
  · cases h

theorem actCaptureClear_appliesInTurn : AppliesInTurn actCaptureClear := by
  rintro r s s' ⟨⟩
  exact ⟨rfl, rfl⟩

theorem State.admitWrite_turnKept {apply : Request → State → Option State} (ha : AppliesInTurn apply) (t : Taken) (s : State) :
    s.TurnKept (s.admitWrite apply t) := by
  have hrefused (st : Status) : s.TurnKept (s.finishWith t st) := (State.TurnKept.refl s).finishWith t st
  unfold State.admitWrite
  split
  · exact hrefused _
  · split
    · split
      · split
        · next s' hs' => exact (ha _ s s' hs').finishWith t _
        · exact hrefused _
      · exact hrefused _
    · exact hrefused _

theorem State.admitAction_turnKept {act : Request → State → Option State} (ha : AppliesInTurn act) (st : Status) (t : Taken) (s : State) :
    s.TurnKept (s.admitAction act st t) := by
  have hrefused (st : Status) : s.TurnKept (s.finishWith t st) := (State.TurnKept.refl s).finishWith t st
  unfold State.admitAction
  split
  · exact hrefused _
  · split
    · split
      · next s' hs' => exact (ha _ s s' hs').finishWith t _
      · exact hrefused _
    · exact hrefused _

/-! ### One service (R30) -/

/-- The request leaves the head of its intake queue, its domain becomes the last served, and nothing else of the uplink changes. -/
structure State.TakesTurn (s : State) (t : Taken) (u : State) : Prop where
  uplink : u.uplink = { s.uplink with intake := s.uplink.intake.set t.domain s.uplink.intake[t.domain].tail }
  lastServed : u.tables.lastServed = t.domain

/-- A service takes its turn where what it does to the request it has taken leaves the uplink and the last-served domain alone. -/
theorem State.serve_takesTurn {s : State} {t : Taken} (hn : s.nextTaken = some t) {want : Request → Bool} (hw : want t.request = true)
    {act : Taken → State → State} (ha : ∀ u : State, u.TurnKept (act t u)) : s.TakesTurn t (s.serve want act) := by
  obtain ⟨huplink, hserved⟩ := ha (s.takeRequest t)
  rw [State.serve_of want act s t hn hw]
  exact ⟨huplink, hserved⟩

theorem State.serveChecked_takesTurn {s : State} {t : Taken} (hn : s.nextTaken = some t) {k : ReqKind} (hk : (t.request.kind == k) = true)
    {act : Taken → State → State} (ha : ∀ u : State, u.TurnKept (act t u)) : s.TakesTurn t (s.serveChecked k act) := by
  refine State.serve_takesTurn hn hk fun u => ?_
  split
  · exact ha u
  · exact (State.TurnKept.refl u).finishWith t _

/-- The groups that CTL_WRITE may write are those of codes 1 to 7 (Tables 9-5, 10-1). -/
theorem groupInfo_writable {g : Nat} {i : GroupInfo} (hg : groupInfo g = some i) (hw : i.writable = true) : 1 ≤ g ∧ g ≤ 7 := by
  unfold groupInfo at hg
  split at hg
  case h_15 => cases hg
  case h_1 | h_2 | h_3 | h_4 | h_5 | h_6 | h_7 => omega
  all_goals cases hg; cases hw

theorem Request.otherGroup_of_code {r : Request} (h : (r.group == 0 || decide (7 < r.group)) = true) : r.otherGroup = true := by
  simp only [Bool.or_eq_true, beq_iff_eq, decide_eq_true_eq] at h
  unfold Request.otherGroup
  split
  · next i hi =>
    rw [Bool.not_eq_true']
    refine Bool.eq_false_iff.2 fun hw => ?_
    have := groupInfo_writable hi hw
    omega
  · rfl

/-- Every command that names the arbiter's next choice takes its turn, whatever becomes of the request. -/
theorem exec_takesTurn {s : State} {t : Taken} (hn : s.nextTaken = some t) {c : Instr} (hc : commandServes c t.request = true) :
    ∃ u, exec c s = .next u ∧ s.TakesTurn t u := by
  have hdata (k : ReqKind) (hk : (t.request.kind == k) = true) : s.TakesTurn t (s.serveData k) :=
    State.serve_takesTurn hn hk fun u => (State.TurnKept.refl u).admission t
  have hwrite (g : Nat) (hg : (t.request.kind == .ctlWrite && t.request.group == g) = true) {apply : Request → State → Option State}
      (ha : AppliesInTurn apply) : s.TakesTurn t (s.serveWrite g apply) :=
    State.serve_takesTurn hn hg fun u => State.admitWrite_turnKept ha t u
  have haction (a : Nat) (hcode : (t.request.kind == .bayAction && t.request.action == a) = true) {act : Request → State → Option State}
      (ha : AppliesInTurn act) : s.TakesTurn t (s.serveAction a act) :=
    State.serve_takesTurn hn hcode fun u => State.admitAction_turnKept ha _ t u
  cases c with
  | read => exact ⟨_, rfl, hdata .read hc⟩
  | write => exact ⟨_, rfl, hdata .write hc⟩
  | blockRead => exact ⟨_, rfl, hdata .blockRead hc⟩
  | blockWrite => exact ⟨_, rfl, hdata .blockWrite hc⟩
  | fetchAdd => exact ⟨_, rfl, hdata .fetchAdd hc⟩
  | sync => exact ⟨_, rfl, State.serve_takesTurn hn hc fun u => (State.TurnKept.refl u).admitSync t⟩
  | claim => exact ⟨_, rfl, State.serveChecked_takesTurn hn hc fun u => (State.TurnKept.refl u).claimEffect t⟩
  | complete => exact ⟨_, rfl, State.serveChecked_takesTurn hn hc fun u => (State.TurnKept.refl u).completeEffect t⟩
  | threshold => exact ⟨_, rfl, State.serveChecked_takesTurn hn hc fun u => (State.TurnKept.refl u).thresholdEffect t⟩
  | message => exact ⟨_, rfl, State.serveChecked_takesTurn hn hc fun u => (State.TurnKept.refl u).messageChecked t⟩
  | clearService => exact ⟨_, rfl, State.serveChecked_takesTurn hn hc fun u => (State.TurnKept.refl u).clearServiceEffect t⟩
  | ctlRead => exact ⟨_, rfl, State.serveChecked_takesTurn hn hc fun u => (State.TurnKept.refl u).admitRead t⟩
  | ctlWriteAperture => exact ⟨_, rfl, hwrite 1 hc writeAperture_appliesInTurn⟩
  | ctlWriteDomain => exact ⟨_, rfl, hwrite 2 hc writeDomain_appliesInTurn⟩
  | ctlWriteGrant => exact ⟨_, rfl, hwrite 3 hc writeGrant_appliesInTurn⟩
  | ctlWriteRoute => exact ⟨_, rfl, hwrite 4 hc writeRoute_appliesInTurn⟩
  | ctlWriteDescriptor => exact ⟨_, rfl, hwrite 5 hc writeDescriptor_appliesInTurn⟩
  | ctlWriteDescLimit => exact ⟨_, rfl, hwrite 6 hc writeDescLimit_appliesInTurn⟩
  | ctlWriteBayPolicy => exact ⟨_, rfl, hwrite 7 hc writeBayPolicy_appliesInTurn⟩
  | ctlWriteOtherGroup =>
    obtain ⟨hkind, hgroup⟩ := Bool.and_eq_true_iff.1 hc
    have hother : (t.request.kind == .ctlWrite && t.request.otherGroup) = true :=
      Bool.and_eq_true_iff.2 ⟨hkind, Request.otherGroup_of_code hgroup⟩
    exact ⟨_, rfl, State.serve_takesTurn hn hother fun u => State.admitWrite_turnKept appliesInTurn_none t u⟩
  | powerOn => exact ⟨_, rfl, haction 1 hc (onBay_appliesInTurn _)⟩
  | powerOff => exact ⟨_, rfl, haction 2 hc (onBay_appliesInTurn _)⟩
  | auxOn => exact ⟨_, rfl, haction 3 hc (onBay_appliesInTurn _)⟩
  | auxOff => exact ⟨_, rfl, haction 4 hc (onBay_appliesInTurn _)⟩
  | reset => exact ⟨_, rfl, haction 5 hc actReset_appliesInTurn⟩
  | retry => exact ⟨_, rfl, haction 6 hc (onBay_appliesInTurn _)⟩
  | parkLight => exact ⟨_, rfl, haction 7 hc (onBay_appliesInTurn _)⟩
  | parkDeep => exact ⟨_, rfl, haction 8 hc (onBay_appliesInTurn _)⟩
  | wake => exact ⟨_, rfl, haction 9 hc (onBay_appliesInTurn _)⟩
  | captureClear => exact ⟨_, rfl, haction 10 hc actCaptureClear_appliesInTurn⟩
  | bayActionUnknown => exact ⟨_, rfl, State.serve_takesTurn hn hc fun u => State.admitAction_turnKept appliesInTurn_none _ t u⟩
  | _ => cases hc

/-! ### The link reset (R40, R64) -/

theorem State.TurnKept.dropEntry {s u : State} (e : EntryId) (h : s.TurnKept u) : s.TurnKept (u.dropEntry e) := by
  unfold State.dropEntry
  split <;> exact h.congr rfl rfl

theorem State.TurnKept.discardRunning {s u : State} (e : EntryId) (h : s.TurnKept u) : s.TurnKept (u.discardRunning e) := by
  unfold State.discardRunning
  split
  · split
    · exact h.congr rfl rfl
    · exact h.dropEntry e
  · exact h.dropEntry e

/-- What Table 3-4 does to one entry stays within the tracker and the bay queues. -/
theorem State.TurnKept.linkResetEntry {s u : State} (e : EntryId) (h : s.TurnKept u) : s.TurnKept (u.linkResetEntry e) := by
  have hresponse : s.TurnKept (u.dropResponse e) := h.congr rfl rfl
  have hfree : s.TurnKept (u.freeEntry e) := h.congr rfl rfl
  unfold State.linkResetEntry
  dsimp only
  split
  case h_1 => exact h
  case h_2 =>
    split
    · exact hresponse
    · exact hfree
  case h_3 | h_5 =>
    split
    · exact hresponse
    · exact h.dropEntry e
  case h_4 =>
    split
    · exact hresponse
    · exact h.discardRunning e
  case h_6 | h_7 => exact hfree

theorem State.TurnKept.trackerLinkReset {s u : State} (h : s.TurnKept u) : s.TurnKept u.trackerLinkReset :=
  (workKept s).examine _ _ _ ((workKept s).tracker _ _ (foldl_kept (fun _ e hv => hv.linkResetEntry e) _ u h))

theorem State.TurnKept.eventLinkReset {s u : State} (h : s.TurnKept u) : s.TurnKept u.eventLinkReset := reexamineAll _ (h.withEvents _)

/-- A link reset sets the last-served domain to 7 (R30, R40). -/
theorem State.linkReset_lastServed (s : State) : s.linkReset.tables.lastServed = 7 := by
  have hkept : State.TurnKept { s with uplink := s.uplink.lost, tables := { s.tables with lastServed := 7 } } s.linkReset :=
    (State.TurnKept.refl _).trackerLinkReset.settleAll.eventLinkReset
  exact hkept.lastServed

/-! ### The obligation -/

/-- Settles O9: the choice is the head of the nearest non-empty queue after the last-served domain and the lowest free entry, every command that serves it takes its turn, and the two resets start the round again at domain 0. -/
theorem arbiterServesRoundRobin : Obligations.ArbiterServesRoundRobin := by
  intro s
  refine ⟨fun t ht => ?taken, ?nothing, ⟨_, rfl, rfl⟩, fun hup => ?linkLost⟩
  case taken =>
    obtain ⟨hentry, hdomain, hhead⟩ := (s.nextTaken_eq_some_iff t).1 ht
    obtain ⟨hfree, hlowest⟩ := (s.tracker.lowestFree_eq_some_iff t.entry).1 hentry
    obtain ⟨-, hnearest⟩ := (s.servedDomain_eq_some_iff t.domain).1 hdomain
    refine ⟨hhead, hnearest, hfree, hlowest, fun c hc => ?_⟩
    obtain ⟨u, hu, hturn⟩ := exec_takesTurn ht hc
    exact ⟨u, hu, hturn.lastServed, hturn.uplink⟩
  case nothing => rw [s.nextTaken_eq_none_iff, s.tracker.lowestFree_eq_none_iff, s.servedDomain_eq_none_iff]
  case linkLost => exact ⟨s.linkReset, by simp only [exec, execLinkLost, hup], s.linkReset_lastServed⟩

end Sys2Proof.Machine

/-! The bay actions that bring a bay up (6.3, 6.7, 6.9): what a BAY_ACTION that reaches its bay's engine answers, the entry into POWERING of a sound bay whose rails are off, and from these POWER_ON and RETRY by bay state. -/

namespace Sys2Proof.Machine

/-! ### A BAY_ACTION that passes steps 1 and 2 of admission (R39) -/

/-- Putting a bay back as it stands changes nothing. -/
theorem State.mapBay_const_self (b : BayId) (s : State) : (s.mapBay b fun _ => s.bays[b]) = s := by
  simp [State.mapBay]

/-- The service of an action that passes steps 1 and 2 ends OK in what the action makes of the part, or BAD_STATE with nothing else done where the action is not accepted. -/
theorem State.serveAction_of_takesAction {s : State} {t : Taken} {c : Nat} (act : Request → State → Option State) (h : s.TakesAction t c) :
    s.serveAction c act = (act t.request (s.takeRequest t)).elim ((s.takeRequest t).finishWith t .badState) (State.finishWith t .ok) := by
  obtain ⟨hnext, hkind, hcode, henabled, hlevel⟩ := h
  have hon : (s.takeRequest t).enabled t.request.domain = true := henabled
  rw [State.serveAction, State.serve_of _ _ s t hnext (by simp [hkind, hcode]), State.admitAction, hon, State.takeRequest_tables_domains, if_pos hlevel]
  cases act t.request (s.takeRequest t) <;> rfl

/-- A BAY_ACTION that changes its bay alone is answered with its status (R39, R46). -/
theorem State.actionAnswered_finishWith {s : State} {t : Taken} (hk : t.request.kind = .bayAction) (st : Status) (y : Bay) :
    s.ActionAnswered t st y (((s.takeRequest t).mapBay t.request.actionBay fun _ => y).finishWith t st) := by
  have hempty : (if t.request.kind.returnsBuffer then t.request.writeBuffer else []) = [] := by rw [hk]; rfl
  have hserved : s.Served t (((s.takeRequest t).mapBay t.request.actionBay fun _ => y).finishWith t st) :=
    State.served_finish rfl rfl rfl rfl fun _ => ⟨rfl, rfl, rfl⟩
  have hanswered : s.AnsweredWith t st {} 0 (if t.request.kind.returnsBuffer then t.request.writeBuffer else [])
      (((s.takeRequest t).mapBay t.request.actionBay fun _ => y).finishWith t st) :=
    State.answered_finish (u := (s.takeRequest t).mapBay t.request.actionBay fun _ => y) rfl id rfl rfl
  rw [hempty] at hanswered
  refine ⟨hserved, hanswered, ?tables, ?bays, ?events, ?capture⟩
  case tables =>
    unfold State.TablesKept
    rw [State.finishWith_tables]
    exact ⟨rfl, rfl, rfl, rfl⟩
  case bays => rw [State.finishWith_bays]; rfl
  case events => rw [State.finishWith_events]; rfl
  case capture => rw [State.finishWith_capture]; rfl

/-- An action that its bay accepts is answered OK, and the bay is as the action leaves it. -/
theorem State.onBay_accepted {s : State} {t : Taken} {c : Nat} {f : Bay → Option Bay} {y : Bay}
    (h : s.TakesAction t c) (hf : f s.bays[t.request.actionBay] = some y) : s.ActionAnswered t .ok y (s.serveAction c (onBay f)) := by
  rw [State.serveAction_of_takesAction _ h, onBay, State.takeRequest_bays, hf]
  obtain ⟨-, hkind, -⟩ := h
  exact State.actionAnswered_finishWith hkind .ok y

/-- An action that its bay does not accept is answered BAD_STATE, and the bay is as it was. -/
theorem State.onBay_refused {s : State} {t : Taken} {c : Nat} {f : Bay → Option Bay}
    (h : s.TakesAction t c) (hf : f s.bays[t.request.actionBay] = none) :
    s.ActionAnswered t .badState s.bays[t.request.actionBay] (s.serveAction c (onBay f)) := by
  rw [State.serveAction_of_takesAction _ h, onBay, State.takeRequest_bays, hf]
  obtain ⟨-, hkind, -⟩ := h
  have hanswered := State.actionAnswered_finishWith (s := s) hkind .badState s.bays[t.request.actionBay]
  rwa [← State.takeRequest_bays t s, State.mapBay_const_self] at hanswered

/-! ### Entering POWERING with the rails off (R106) -/

/-- Outside the five states in service there is no park, and the arbiter does not act (R82, 7.4). -/
theorem BayState.of_not_inService {st : BayState} (h : st.inService = false) : st.hasDepth = false ∧ st.arbitrates = false := by
  revert h
  cases st <;> decide

theorem Bay.BusFree.arbitrates {b : Bay} (h : b.BusFree) : b.state.arbitrates = true := by
  obtain ⟨hs | hs | hs, -⟩ := h <;> rw [hs] <;> rfl

/-- What a sound bay does not hold outside the five states in service (R82, R102, R124, R125, 7.4). -/
structure Bay.HoldsNothing (b : Bay) : Prop where
  identity : b.identity = none
  pollTimer : b.pollTimer = none
  owed : b.owed = 0
  forced : b.forced = false
  due : b.due = false
  depth : b.depth = none

theorem Bay.Sound.holdsNothing {b : Bay} (h : b.Sound) (hs : b.state.inService = false) : b.HoldsNothing := by
  obtain ⟨-, ⟨hidentity, hpoll, -, hdepth, -⟩, ⟨-, hwork, -, -, hforced, -, -, hdue, -⟩, -⟩ := h
  obtain ⟨hpark, harb⟩ := BayState.of_not_inService hs
  rw [Bool.eq_false_iff] at harb
  rw [hs, Option.isSome_eq_false_iff, Option.isNone_iff_eq_none] at hidentity hpoll
  rw [hpark, Option.isSome_eq_false_iff, Option.isNone_iff_eq_none] at hdepth
  exact { identity := hidentity, pollTimer := hpoll, owed := (hwork hs).1, depth := hdepth
          forced := Bool.eq_false_iff.2 (mt hforced harb)
          due := Bool.eq_false_iff.2 fun hd => harb (hdue hd).arbitrates }

/-- In the states with the main rail off (EMPTY, SEATING, UNPOWERED and FAULTED) the bay is not in service, module reset is asserted and no identity read is under way (Table 6-1). -/
theorem BayState.of_not_powered {st : BayState} (h : st.powered = false) : st.inService = false ∧ st.inReset = true ∧ st ≠ .identifying := by
  revert h
  cases st <;> decide

/-- A sound bay whose rails are off goes to POWERING, or on to HELD where rail-good is already reported, with its rails on and the timer of that state started; its cause is cleared, and nothing else changes (R106, R107). -/
theorem Bay.enterPowering_of_not_powered {b : Bay} (h : b.Sound) (hs : b.state.powered = false) :
    b.enterPowering = { b with state := if b.railGood then .held else .powering, cause := .none, mainRail := true, auxRail := b.auxWanted
                               timer := some (if b.railGood then Config.holdTime else Config.railTime) } := by
  obtain ⟨hservice, hreset, hid⟩ := BayState.of_not_powered hs
  obtain ⟨hidentity, hpoll, howed, hforced, hdue, hdepth⟩ := h.holdsNothing hservice
  obtain ⟨⟨-, houtput, -⟩, -⟩ := h
  rw [hreset] at houtput
  cases hgood : b.railGood <;>
    simp [Bay.enterPowering, Bay.enterHeld, Bay.enter, BayState.powered, BayState.inReset, BayState.inService, BayState.arbitrates,
      BayState.hasDepth, hgood, houtput, hidentity, hpoll, howed, hforced, hdue, hdepth, hid]

theorem Bay.Sound.cause_eq_none {b : Bay} (h : b.Sound) (hs : b.state ≠ .faulted) : b.cause = .none := by
  obtain ⟨-, ⟨-, -, -, -, hcause, -⟩, -⟩ := h
  exact Classical.not_not.1 (mt hcause.1 hs)

theorem Bay.Sound.railGood_of_faulted {b : Bay} (h : b.Sound) (hs : b.state = .faulted) : ¬ b.railGood = true := by
  obtain ⟨-, ⟨-, -, -, -, -, -, -, hgood⟩, -⟩ := h
  exact Bool.eq_false_iff.1 (hgood hs)

/-! ### POWER_ON and RETRY on a bay (R114, R120) -/

theorem Bay.actPowerOn_of_unpowered {b : Bay} (h : b.state = .unpowered) : b.actPowerOn = some b.enterPowering := by
  simp only [Bay.actPowerOn, h]

/-- In a park or its wake, a drain requested decides whether the bay accepts POWER_ON (R114). -/
theorem Bay.actPowerOn_of_park {b : Bay} (h : b.state = .parking ∨ b.state = .parked ∨ b.state = .waking) :
    b.actPowerOn = if b.drainRequested then none else some b := by
  rcases h with h | h | h <;> simp only [Bay.actPowerOn, h]

/-- Powered and not on its way to UNPOWERED, the bay accepts POWER_ON with no change (R114). -/
theorem Bay.actPowerOn_unchanged {b : Bay}
    (h : b.state = .powering ∨ b.state = .held ∨ b.state = .starting ∨ b.state = .identifying ∨ b.state = .online
      ∨ (b.state = .parking ∨ b.state = .parked ∨ b.state = .waking) ∧ b.drainRequested = false) : b.actPowerOn = some b := by
  rcases h with h | h | h | h | h | ⟨hpark, hdrain⟩
  case inr.inr.inr.inr.inr => rw [Bay.actPowerOn_of_park hpark, hdrain]; rfl
  all_goals simp only [Bay.actPowerOn, h]

/-- Draining or asked to, without a seated module, or FAULTED, the bay does not accept POWER_ON (R114). -/
theorem Bay.actPowerOn_eq_none {b : Bay}
    (h : b.state = .draining ∨ b.state = .empty ∨ b.state = .seating ∨ b.state = .faulted
      ∨ (b.state = .parking ∨ b.state = .parked ∨ b.state = .waking) ∧ b.drainRequested = true) : b.actPowerOn = none := by
  rcases h with h | h | h | h | ⟨hpark, hdrain⟩
  case inr.inr.inr.inr => rw [Bay.actPowerOn_of_park hpark, hdrain]; rfl
  all_goals simp only [Bay.actPowerOn, h]

theorem Bay.actRetry_of_faulted {b : Bay} (h : b.state = .faulted) : b.actRetry = some b.enterPowering := by
  simp only [Bay.actRetry, h, beq_self_eq_true, if_true]

theorem Bay.actRetry_eq_none {b : Bay} (h : b.state ≠ .faulted) : b.actRetry = none := by
  simp only [Bay.actRetry, beq_eq_false_iff_ne.2 h, Bool.false_eq_true, if_false]

/-! ### The obligations -/

/-- Settles O33: UNPOWERED holds no cause, so the entry into POWERING leaves the cause as it was. -/
theorem powerOnActsByState : Obligations.PowerOnActsByState := by
  intro s t ht hsound b
  have hb : b.Sound := hsound t.request.actionBay
  refine ⟨fun hstate => ⟨_, rfl, ?unpowered⟩, fun hstate => ⟨_, rfl, ?unchanged⟩, fun hstate => ⟨_, rfl, ?refused⟩⟩
  case unpowered =>
    have hentered := Bay.enterPowering_of_not_powered hb (by rw [hstate]; rfl)
    rw [← hb.cause_eq_none (by rw [hstate]; decide)] at hentered
    exact State.onBay_accepted ht ((Bay.actPowerOn_of_unpowered hstate).trans (congrArg some hentered))
  case unchanged => exact State.onBay_accepted ht (Bay.actPowerOn_unchanged hstate)
  case refused => exact State.onBay_refused ht (Bay.actPowerOn_eq_none hstate)

/-- Settles O36: FAULTED holds no rail-good, so the entry into POWERING waits for one. -/
theorem retryPowersFaultedBay : Obligations.RetryPowersFaultedBay := by
  intro s t ht hsound b
  have hb : b.Sound := hsound t.request.actionBay
  refine ⟨fun hstate => ⟨_, rfl, ?faulted⟩, fun hstate => ⟨_, rfl, ?refused⟩⟩
  case faulted =>
    have hentered := Bay.enterPowering_of_not_powered hb (by rw [hstate]; rfl)
    simp only [if_neg (hb.railGood_of_faulted hstate)] at hentered
    exact State.onBay_accepted ht ((Bay.actRetry_of_faulted hstate).trans (congrArg some hentered))
  case refused => exact State.onBay_refused ht (Bay.actRetry_eq_none hstate)

end Sys2Proof.Machine

/-! The wake of a parked bay (7.4): what a sound PARKED bay holds, the entry from one state in service into another, the start and the end of the wake, and from these WAKE by bay state. -/

namespace Sys2Proof.Machine

/-! ### From one state in service into another (Table 6-1, R102) -/

/-- In service the main rail is on and module reset released, and the state is neither FAULTED nor IDENTIFYING (Table 6-1). -/
theorem BayState.of_inService {st : BayState} (h : st.inService = true) :
    st.powered = true ∧ st.inReset = false ∧ st ≠ .faulted ∧ st ≠ .identifying := by
  revert h
  cases st <;> decide

/-- Between two states in service the outputs, the rail-good, the identity record, the polls and the identity line stay; the timer and the cause go, and so do the forced run, the decision point and the depth where the new state does not hold them. -/
theorem Bay.enter_of_inService {b : Bay} {st : BayState} (hout : b.OutputsSound) (hs : b.state.inService = true) (hst : st.inService = true) :
    b.enter st = { b with state := st, timer := none, forced := b.forced && st.arbitrates, due := b.due && st.arbitrates
                          depth := if st.hasDepth then b.depth else none, cause := .none } := by
  obtain ⟨hpowered, hreset, -, hid⟩ := BayState.of_inService hs
  obtain ⟨hpowered', hreset', hfaulted', hid'⟩ := BayState.of_inService hst
  obtain ⟨hmain, hmodule, haux⟩ := hout
  rw [hpowered] at hmain
  rw [hreset] at hmodule
  rw [hmain] at haux
  simp [Bay.enter, hst, hpowered', hreset', hfaulted', hid, hid', hmain, hmodule, haux]

/-- Outside PARKING and DRAINING nothing ends by itself (R117, R133). -/
theorem Bay.settle_of_not_ending {b : Bay} (hpark : b.state ≠ .parking) (hdrain : b.state ≠ .draining) : b.settle = b := by
  have hkept : b.parkSettle = b := by simp [Bay.parkSettle, hpark]
  rw [Bay.settle, hkept]
  simp [Bay.drainSettle, hdrain]

/-! ### A PARKED bay (R134) -/

/-- What a sound bay in PARKED does not hold: no bay timer runs, nothing is on the bus or due to be, and no drain is requested. -/
structure Bay.AtRest (b : Bay) : Prop where
  timer : b.timer = none
  exchange : b.exchange = none
  unit : b.unit = none
  forced : b.forced = false
  due : b.due = false
  cause : b.cause = .none
  drainRequested : b.drainRequested = false

theorem Bay.Sound.atRest {b : Bay} (h : b.Sound) (hs : b.state = .parked) : b.AtRest := by
  have hcause : b.cause = .none := h.cause_eq_none (by rw [hs]; decide)
  obtain ⟨-, ⟨-, -, htimer, -⟩, ⟨-, -, -, hexchange, hforced, hunit, -, hdue, hparked⟩, -⟩ := h
  have harb : ¬ b.state.arbitrates = true := by rw [hs]; decide
  have hserving : ¬ (b.state = .online ∨ b.state = .draining) := by rw [hs]; decide
  obtain ⟨-, -, hdrain⟩ := hparked hs
  rw [hs] at htimer
  exact { timer := Option.isNone_iff_eq_none.1 (Option.isSome_eq_false_iff.1 htimer)
          exchange := Option.not_isSome_iff_eq_none.1 (mt hexchange harb)
          unit := Option.not_isSome_iff_eq_none.1 (mt hunit hserving)
          forced := Bool.eq_false_iff.2 (mt hforced harb)
          due := Bool.eq_false_iff.2 fun hd => harb (hdue hd).arbitrates
          cause := hcause
          drainRequested := hdrain }

/-! ### The wake (R134, R135) -/

/-- How long the wake of a bay lasts in µs, by its depth (R134). -/
def Bay.wakeTime (b : Bay) : Nat := if b.depth == some .deep then b.deepWake else Config.lightWakeTime

theorem Bay.wakeTime_of_light {b : Bay} (h : b.depth = some .light) : b.wakeTime = 5 := by
  simp [Bay.wakeTime, h, Config.lightWakeTime]

theorem Bay.wakeTime_of_deep {b : Bay} {id : IdentityRecord} (h : b.depth = some .deep) (hid : b.identity = some id) :
    b.wakeTime = idDeepWake id := by
  simp [Bay.wakeTime, h, Bay.deepWake, hid]

/-- The start of a wake is the entry into WAKING, with the timer of the wake or, for a wake of 0, its end. -/
theorem Bay.startWake_eq (b : Bay) :
    b.startWake = if b.wakeTime == 0 then (b.enter .waking).wakeEnds else { b.enter .waking with timer := some b.wakeTime } := rfl

/-- With its bus free and no drain requested, a bay whose wake ends is ONLINE with a decision point due (R82, R135). -/
theorem Bay.wakeEnds_of_free {b : Bay} (hout : b.OutputsSound) (hs : b.state.inService = true) (hex : b.exchange = none)
    (hunit : b.unit = none) (hdrain : b.drainRequested = false) :
    b.wakeEnds = { b with state := .online, timer := none, depth := none, timeouts := 0, due := true, cause := .none } := by
  rw [Bay.wakeEnds, Bay.enter_of_inService hout hs (st := .online) rfl]
  simp [hdrain, Bay.callArbiter, Bay.busFree, BayState.arbitrates, BayState.hasDepth, hex, hunit]

/-- A sound PARKED bay enters WAKING with nothing but its state changed. -/
theorem Bay.enter_waking_of_parked {b : Bay} (h : b.Sound) (hs : b.state = .parked) : b.enter .waking = { b with state := .waking } := by
  obtain ⟨htimer, -, -, hforced, hdue, hcause, -⟩ := h.atRest hs
  obtain ⟨hout, -⟩ := h
  rw [Bay.enter_of_inService hout (by rw [hs]; rfl) (st := .waking) rfl]
  simp [BayState.hasDepth, htimer, hforced, hdue, hcause]

theorem Bay.startWake_of_ne_zero {b : Bay} (h : b.Sound) (hs : b.state = .parked) (hn : b.wakeTime ≠ 0) :
    b.startWake = { b with state := .waking, timer := some b.wakeTime } := by
  rw [Bay.startWake_eq, if_neg (mt eq_of_beq hn), Bay.enter_waking_of_parked h hs]

theorem Bay.startWake_of_eq_zero {b : Bay} (h : b.Sound) (hs : b.state = .parked) (hn : b.wakeTime = 0) :
    b.startWake = { b with state := .online, depth := none, timeouts := 0, due := true } := by
  obtain ⟨htimer, hexchange, hunit, -, -, hcause, hdrain⟩ := h.atRest hs
  have hout : Bay.OutputsSound { b with state := .waking } := by
    obtain ⟨⟨hmain, hreset, haux⟩, -⟩ := h
    rw [hs] at hmain hreset
    exact ⟨hmain, hreset, haux⟩
  rw [Bay.startWake_eq, if_pos (beq_iff_eq.2 hn), Bay.enter_waking_of_parked h hs, Bay.wakeEnds_of_free hout rfl hexchange hunit hdrain]
  simp [htimer, hcause]

/-! ### WAKE on a bay (R136) -/

theorem Bay.actWake_of_parked {b : Bay} (h : b.state = .parked) : b.actWake = some b.startWake.settle := by
  simp only [Bay.actWake, h]

theorem Bay.actWake_of_wake_ne_zero {b : Bay} (h : b.Sound) (hs : b.state = .parked) (hn : b.wakeTime ≠ 0) :
    b.actWake = some { b with state := .waking, timer := some b.wakeTime } := by
  rw [Bay.actWake_of_parked hs, Bay.startWake_of_ne_zero h hs hn, Bay.settle_of_not_ending (by simp) (by simp)]

theorem Bay.actWake_of_wake_eq_zero {b : Bay} (h : b.Sound) (hs : b.state = .parked) (hn : b.wakeTime = 0) :
    b.actWake = some { b with state := .online, depth := none, timeouts := 0, due := true } := by
  rw [Bay.actWake_of_parked hs, Bay.startWake_of_eq_zero h hs hn, Bay.settle_of_not_ending (by simp) (by simp)]

theorem Bay.actWake_unchanged {b : Bay} (h : b.state = .online ∨ b.state = .waking) : b.actWake = some b := by
  rcases h with h | h <;> simp only [Bay.actWake, h]

theorem Bay.actWake_eq_none {b : Bay} (hparked : b.state ≠ .parked) (honline : b.state ≠ .online) (hwaking : b.state ≠ .waking) :
    b.actWake = none := by
  unfold Bay.actWake
  split
  case h_1 h => exact absurd h hparked
  case h_2 h => exact absurd h honline
  case h_3 h => exact absurd h hwaking
  all_goals rfl

/-! ### The obligation -/

/-- Settles O38: a sound PARKED bay has its bus free, its timer stopped and no drain requested, so its wake changes the state and the timer alone, and a wake of 0 leads to ONLINE. -/
theorem wakeActsByState : Obligations.WakeActsByState := by
  intro s t ht hsound b answered
  have hb : b.Sound := hsound t.request.actionBay
  refine ⟨fun hstate hlight => ⟨_, rfl, ?light⟩, fun hstate hdeep id hid => ?deep, fun hstate => ⟨_, rfl, ?unchanged⟩,
    fun hparked honline hwaking => ⟨_, rfl, ?refused⟩⟩
  case light =>
    have htime := Bay.wakeTime_of_light hlight
    rw [← htime]
    exact State.onBay_accepted ht (Bay.actWake_of_wake_ne_zero hb hstate (by rw [htime]; decide))
  case deep =>
    rw [← Bay.wakeTime_of_deep hdeep hid]
    exact ⟨fun hn => ⟨_, rfl, State.onBay_accepted ht (Bay.actWake_of_wake_ne_zero hb hstate hn)⟩,
      fun hn => ⟨_, rfl, State.onBay_accepted ht (Bay.actWake_of_wake_eq_zero hb hstate hn)⟩⟩
  case unchanged => exact State.onBay_accepted ht (Bay.actWake_unchanged hstate)
  case refused => exact State.onBay_refused ht (Bay.actWake_eq_none hparked honline hwaking)

end Sys2Proof.Machine

/-! Deliverability and the choice among the deliverable items of a domain (8.4): the conditions of R144 spelled out, the order in which one item outranks another, and the highest item as the one that outranks every other deliverable one. -/

namespace Sys2Proof.Machine

/-! ### The conditions of R144 -/

/-- A bay source is routed by its route record, a message item to its own domain. -/
theorem EventUnit.routedTo_eq_iff (u : EventUnit) (it : Item) (d : DomainId) :
    u.routedTo it = d ↔ (∀ n, it = .bay n → u.routes[it.source].destination = d) ∧ (∀ c e, it = .msg c e → e = d) := by
  cases it with
  | bay n => exact ⟨fun h => ⟨fun _ _ => h, nofun⟩, fun ⟨hbay, _⟩ => hbay n rfl⟩
  | msg c e => exact ⟨fun h => ⟨nofun, fun _ _ heq => (Item.msg.inj heq).2 ▸ h⟩, fun ⟨_, hmsg⟩ => hmsg c e rfl⟩

theorem exceedsTop_iff (p : Fin 16) (l : List InService) :
    exceedsTop p l = true ↔ ∀ top rest, l = top :: rest → top.priority < p := by
  cases l with
  | nil => simp [exceedsTop]
  | cons x xs => simp [exceedsTop]

theorem State.deliverable_iff (s : State) (d : DomainId) (it : Item) :
    s.deliverable d it = true ↔
      s.events.isPending it = true ∧ s.events.routedTo it = d ∧ s.events.routes[it.source].masked = false
      ∧ 1 ≤ s.events.routes[it.source].priority.val ∧ s.events.delivery[d].threshold < s.events.routes[it.source].priority
      ∧ exceedsTop s.events.routes[it.source].priority s.events.delivery[d].inService = true
      ∧ s.events.isActive it = false ∧ s.tables.domains[d].enabled = true := by
  simp only [State.deliverable, Bool.and_eq_true, beq_iff_eq, decide_eq_true_eq, Bool.not_eq_true', and_assoc, Fin.le_def, Fin.val_one]

/-- An item is deliverable only to the domain it is routed to. -/
theorem State.mem_itemsOf_of_deliverable {s : State} {d : DomainId} {it : Item} (h : s.deliverable d it = true) : it ∈ itemsOf d := by
  obtain ⟨-, hrouted, -⟩ := (s.deliverable_iff d it).1 h
  exact mem_itemsOf s.events d it hrouted

/-! ### Which of two items is chosen -/

/-- Item `a` comes before item `b` in the choice of R144: by its greater priority or, at equal priority, by its lower source. -/
def State.Outranks (s : State) (a b : Item) : Prop :=
  s.events.routes[b.source].priority < s.events.routes[a.source].priority
    ∨ s.events.routes[b.source].priority = s.events.routes[a.source].priority ∧ a.source < b.source

theorem State.Outranks.trans {s : State} {a b c : Item} (hab : s.Outranks a b) (hbc : s.Outranks b c) : s.Outranks a c := by
  unfold State.Outranks at *
  omega

theorem State.Outranks.asymm {s : State} {a b : Item} (hab : s.Outranks a b) : ¬ s.Outranks b a := by
  unfold State.Outranks at *
  omega

/-- Of two items found in the order of their sources, `better` keeps the one that outranks the other. -/
theorem State.better_eq_outranker (s : State) {a b : Item} (h : a.source < b.source) :
    s.better (some a) b = some a ∧ s.Outranks a b ∨ s.better (some a) b = some b ∧ s.Outranks b a := by
  unfold State.better State.Outranks
  dsimp only
  split
  · exact .inr ⟨rfl, by omega⟩
  · exact .inl ⟨rfl, by omega⟩

/-- An item outranks every other item of a list. -/
def State.IsTop (s : State) (l : List Item) (it : Item) : Prop := it ∈ l ∧ ∀ other ∈ l, other ≠ it → s.Outranks it other

theorem State.IsTop.unique {s : State} {l : List Item} {a b : Item} (ha : s.IsTop l a) (hb : s.IsTop l b) : a = b := by
  obtain ⟨hma, ha⟩ := ha
  obtain ⟨hmb, hb⟩ := hb
  exact Classical.byContradiction fun hne => (ha b hmb (Ne.symm hne)).asymm (hb a hma hne)

/-- What outranks every other item of a list stays on top when an item joins that one of the list outranks. -/
theorem State.IsTop.cons {s : State} {l : List Item} {it w x : Item} (h : s.IsTop l it) (hw : w ∈ l) (hwx : s.Outranks w x) :
    s.IsTop (x :: l) it := by
  obtain ⟨hmem, htop⟩ := h
  refine ⟨List.mem_cons_of_mem x hmem, fun other hother hne => ?_⟩
  rcases List.mem_cons.1 hother with rfl | hother
  · by_cases hwi : w = it
    · exact hwi ▸ hwx
    · exact (htop w hw hwi).trans hwx
  · exact htop other hother hne

/-- On items in the order of their sources the fold of `better` finds the one that outranks the others. -/
theorem State.foldl_better_isTop (s : State) (b : Item) (l : List Item) (hl : (b :: l).Pairwise fun x y => x.source < y.source) :
    ∃ it, l.foldl s.better (some b) = some it ∧ s.IsTop (b :: l) it := by
  induction l generalizing b with
  | nil => exact ⟨b, rfl, List.mem_cons_self, fun other ho hne => absurd (List.mem_singleton.1 ho) hne⟩
  | cons x xs ih =>
    obtain ⟨hb, hxs⟩ := List.pairwise_cons.1 hl
    rw [List.foldl_cons]
    rcases s.better_eq_outranker (hb x List.mem_cons_self) with ⟨hbetter, hrank⟩ | ⟨hbetter, hrank⟩ <;> rw [hbetter]
    · obtain ⟨it, hfold, htop⟩ := ih b (hl.sublist (List.sublist_cons_self x xs |>.cons_cons b))
      have hcons := htop.cons List.mem_cons_self hrank
      exact ⟨it, hfold, by simpa only [State.IsTop, List.mem_cons, or_left_comm] using hcons⟩
    · obtain ⟨it, hfold, htop⟩ := ih x hxs
      exact ⟨it, hfold, htop.cons List.mem_cons_self hrank⟩

/-! ### The highest deliverable item -/

theorem itemsOf_pairwise_source (d : DomainId) : (itemsOf d).Pairwise fun x y => x.source < y.source := by
  refine List.pairwise_append.2 ⟨?bays, ?messages, ?between⟩
  case bays => exact List.pairwise_map.2 (List.pairwise_lt_finRange 64)
  case messages => exact List.pairwise_map.2 ((List.pairwise_lt_finRange 4).imp fun {c c'} h => by simp only [Item.source, Fin.lt_def] at *; omega)
  case between =>
    intro x hx y hy
    obtain ⟨n, -, rfl⟩ := List.mem_map.1 hx
    obtain ⟨c, -, rfl⟩ := List.mem_map.1 hy
    simp only [Item.source, Fin.lt_def]
    omega

theorem State.highest_eq_none_iff (s : State) (d : DomainId) : s.highest d = none ↔ ∀ it, s.deliverable d it = false := by
  rw [← Option.not_isSome_iff_eq_none, State.highest_isSome]
  simp only [not_exists, Bool.not_eq_true]

theorem State.isTop_filter_iff (s : State) (d : DomainId) (it : Item) :
    s.IsTop ((itemsOf d).filter (s.deliverable d)) it ↔
      s.deliverable d it = true ∧ ∀ other, s.deliverable d other = true → other ≠ it → s.Outranks it other := by
  have hmem (x : Item) : x ∈ (itemsOf d).filter (s.deliverable d) ↔ s.deliverable d x = true := by
    rw [List.mem_filter, and_iff_right_of_imp State.mem_itemsOf_of_deliverable]
  simp only [State.IsTop, hmem]

/-- The highest deliverable item is the one that outranks every other deliverable item (R144). -/
theorem State.highest_eq_some_iff (s : State) (d : DomainId) (it : Item) :
    s.highest d = some it ↔ s.deliverable d it = true ∧ ∀ other, s.deliverable d other = true → other ≠ it → s.Outranks it other := by
  rw [← State.isTop_filter_iff]
  have hsorted := (itemsOf_pairwise_source d).filter (s.deliverable d)
  unfold State.highest
  cases hl : (itemsOf d).filter (s.deliverable d) with
  | nil => simp [State.IsTop]
  | cons b l =>
    rw [hl] at hsorted
    obtain ⟨top, hfold, htop⟩ := s.foldl_better_isTop b l hsorted
    have hfirst : (b :: l).foldl s.better none = some top := hfold
    rw [hfirst, Option.some_inj]
    exact ⟨fun h => h ▸ htop, htop.unique⟩

/-! ### The obligation -/

/-- Settles O17: the search goes through the items in the order of their sources and keeps, of two, the one that outranks the other. -/
theorem highestDeliverableItemIsChosen : Obligations.HighestDeliverableItemIsChosen := by
  intro s d
  refine ⟨fun it => ?_, s.highest_eq_none_iff d, s.highest_eq_some_iff d⟩
  rw [s.deliverable_iff, EventUnit.routedTo_eq_iff, exceedsTop_iff]
  simp only [and_assoc]

end Sys2Proof.Machine

/-! The requests that take items out of service or set the threshold (8.6, 8.7): what several re-examinations make of each domain's delivery state, the end of a request whose answer is a status and a result word, the domains an in-service entry names, and from these COMPLETE, CLEAR_SERVICE and THRESHOLD. -/

namespace Sys2Proof.Machine

/-! ### Re-examined domains (R145, R146) -/

/-- A domain whose signal flag is set, or that has no deliverable item, is left as it is. -/
theorem State.reexamine_eq_self {s : State} {d : DomainId} (h : s.events.delivery[d].signal = true ∨ ∀ it, s.deliverable d it = false) :
    s.reexamine d = s := by
  refine if_neg fun hdue => ?_
  obtain ⟨hhighest, hsignal⟩ := Bool.and_eq_true_iff.1 hdue
  rcases h with h | h
  · rw [h] at hsignal; cases hsignal
  · rw [s.highest_isSome] at hhighest
    obtain ⟨it, hit⟩ := hhighest
    rw [h it] at hit; cases hit

/-- A deliverable item of a domain whose signal flag is clear makes its notice ready. -/
theorem State.reexamine_delivery_of_due {s : State} {d : DomainId} (hsignal : s.events.delivery[d].signal = false)
    (hit : ∃ it, s.deliverable d it = true) : (s.reexamine d).events.delivery[d] = { s.events.delivery[d] with signal := true, notice := true } := by
  have hdue : ((s.highest d).isSome && !s.events.delivery[d].signal) = true := by rw [(s.highest_isSome d).2 hit, hsignal]; rfl
  rw [State.reexamine, if_pos hdue, State.mapDelivery_same]

theorem State.reexamineAll_delivery_eq_self {ds : List DomainId} {d : DomainId} {s : State}
    (h : d ∉ ds ∨ s.events.delivery[d].signal = true ∨ ∀ it, s.deliverable d it = false) :
    (s.reexamineAll ds).events.delivery[d] = s.events.delivery[d] := by
  induction ds generalizing s with
  | nil => rfl
  | cons x xs ih =>
    change ((s.reexamine x).reexamineAll xs).events.delivery[d] = _
    by_cases hx : d = x
    · subst hx
      have hsettled := h.resolve_left (not_not_intro List.mem_cons_self)
      rw [State.reexamine_eq_self hsettled, ih (.inr hsettled)]
    · have hother := State.reexamine_other hx s
      rw [ih, hother]
      simpa only [hother, State.reexamine_deliverable, List.mem_cons, hx, false_or] using h

theorem State.reexamineAll_delivery_of_due {ds : List DomainId} {d : DomainId} (hd : d ∈ ds) {s : State}
    (hsignal : s.events.delivery[d].signal = false) (hit : ∃ it, s.deliverable d it = true) :
    (s.reexamineAll ds).events.delivery[d] = { s.events.delivery[d] with signal := true, notice := true } := by
  induction ds generalizing s with
  | nil => cases hd
  | cons x xs ih =>
    change ((s.reexamine x).reexamineAll xs).events.delivery[d] = _
    by_cases hx : d = x
    · subst hx
      have hset := State.reexamine_delivery_of_due hsignal hit
      rw [State.reexamineAll_delivery_eq_self (.inr (.inl (by rw [hset]))), hset]
    · have hother := State.reexamine_other hx s
      rw [ih ((List.mem_cons.1 hd).resolve_left hx) (by rw [hother, hsignal]) (by simpa only [State.reexamine_deliverable] using hit), hother]

/-- Each domain of the list has been re-examined, whatever its place there and however often it stands there. -/
theorem State.reexaminedFrom_reexamineAll {ds : List DomainId} {d : DomainId} (hd : d ∈ ds) (s : State) :
    (s.reexamineAll ds).ReexaminedFrom d s.events.delivery[d] := by
  simp only [State.ReexaminedFrom, State.reexamineAll_deliverable]
  exact ⟨fun ⟨hsignal, hit⟩ => State.reexamineAll_delivery_of_due hd hsignal hit, fun h => State.reexamineAll_delivery_eq_self (.inr h)⟩

/-! ### What keeps latches and marks -/

@[simp] theorem State.reexamineAll_isPending (ds : List DomainId) (it : Item) (s : State) :
    (s.reexamineAll ds).events.isPending it = s.events.isPending it := by
  cases it <;> simp [EventUnit.isPending]

@[simp] theorem State.reexamineAll_isActive (ds : List DomainId) (it : Item) (s : State) :
    (s.reexamineAll ds).events.isActive it = s.events.isActive it := by
  cases it <;> simp [EventUnit.isActive]

@[simp] theorem State.mapDelivery_isPending (d : DomainId) (f : Delivery → Delivery) (it : Item) (s : State) :
    (s.mapDelivery d f).events.isPending it = s.events.isPending it := by
  cases it <;> rfl

@[simp] theorem State.mapDelivery_isActive (d : DomainId) (f : Delivery → Delivery) (it : Item) (s : State) :
    (s.mapDelivery d f).events.isActive it = s.events.isActive it := by
  cases it <;> rfl

/-! ### The end of a request that the event unit serves -/

/-- A request checked at step 1 alone, of an enabled domain, has its effect (Table 2-4). -/
theorem State.serveChecked_of {s : State} {t : Taken} {k : ReqKind} (act : Taken → State → State) (hn : s.nextTaken = some t)
    (hk : t.request.kind = k) (he : s.tables.domains[t.request.domain].enabled = true) :
    s.serveChecked k act = act t (s.takeRequest t) :=
  (State.serve_of (fun r => r.kind == k) _ s t hn (beq_iff_eq.2 hk)).trans (if_pos he)

/-- The request taken is answered with a status and a result word, and no table, bay or capture record has changed. -/
structure State.Concludes (s : State) (t : Taken) (st : Status) (result : Word) (u : State) : Prop where
  served : s.Served t u
  answered : s.AnsweredWith t st {} result [] u
  tables : s.TablesKept u
  bays : u.bays = s.bays
  capture : u.capture = s.capture

/-- The end of a request that has changed the event unit alone. -/
theorem State.concludes_finish {s v : State} {t : Taken} {st : Status} {result : Word} {fill : Entry → Entry}
    (hv : v = { s.takeRequest t with events := v.events }) (hb : t.request.kind.returnsBuffer = false)
    (hkept : ∀ x, (fill x).domain = x.domain ∧ (fill x).tag = x.tag ∧ (fill x).kind = x.kind)
    (hfill : fill (Entry.ofRequest t.request) = { Entry.ofRequest t.request with result := result }) :
    s.Concludes t st result (v.finish t st fill) := by
  have htracker : v.tracker = (s.takeRequest t).tracker := by rw [hv]
  have htables : v.tables = (s.takeRequest t).tables := by rw [hv]
  have hanswered : s.AnsweredWith t st {} result (if t.request.kind.returnsBuffer then t.request.writeBuffer else []) (v.finish t st fill) :=
    State.answered_finish htracker fill hfill rfl
  rw [hb] at hanswered
  refine ⟨State.served_finish ?uplink ?lastServed htracker ?pending hkept, hanswered, ?tables, ?bays, ?capture⟩
  case uplink => rw [hv]
  case lastServed => rw [htables, State.takeRequest_lastServed]
  case pending => rw [hv, State.takeRequest_pending]
  case tables =>
    unfold State.TablesKept
    rw [State.finish_tables, htables]
    exact ⟨rfl, rfl, rfl, rfl⟩
  case bays => rw [State.finish_bays, hv, State.takeRequest_bays]
  case capture => rw [State.finish_capture, hv, State.takeRequest_capture]

theorem State.concludes_finishWith {s : State} {t : Taken} (hb : t.request.kind.returnsBuffer = false) (st : Status) :
    s.Concludes t st 0 ((s.takeRequest t).finishWith t st) :=
  State.concludes_finish rfl hb (fun _ => ⟨rfl, rfl, rfl⟩) rfl

/-- What follows the answer in the event unit leaves the answer as it is. -/
theorem State.Concludes.reexamineAll {s u : State} {t : Taken} {st : Status} {result : Word} (h : s.Concludes t st result u)
    (ds : List DomainId) : s.Concludes t st result (u.reexamineAll ds) where
  served := h.served.congr (u.reexamineAll_uplink ds) (by rw [State.reexamineAll_tables]) (u.reexamineAll_tracker ds) (u.reexamineAll_pending ds)
  answered := h.answered.congr (u.reexamineAll_tracker ds)
  tables := by
    unfold State.TablesKept
    rw [State.reexamineAll_tables]
    exact h.tables
  bays := (u.reexamineAll_bays ds).trans h.bays
  capture := (u.reexamineAll_capture ds).trans h.capture

/-- What the event unit holds in `u` after re-examinations of the domains `ds`, told from what it held before them. -/
structure EventUnit.ExaminedIn (ev : EventUnit) (ds : List DomainId) (u : State) : Prop where
  pending : ∀ it, u.events.isPending it = ev.isPending it
  active : ∀ it, u.events.isActive it = ev.isActive it
  tables : ev.TablesKept u.events
  examined : ∀ d ∈ ds, u.ReexaminedFrom d ev.delivery[d]
  others : ∀ d, d ∉ ds → u.events.delivery[d] = ev.delivery[d]

theorem State.examinedIn_reexamineAll (s : State) (ds : List DomainId) : s.events.ExaminedIn ds (s.reexamineAll ds) where
  pending it := s.reexamineAll_isPending ds it
  active it := s.reexamineAll_isActive ds it
  tables := ⟨s.reexamineAll_events_routes ds, s.reexamineAll_events_descriptors ds, s.reexamineAll_events_limit ds⟩
  examined _ hd := State.reexaminedFrom_reexamineAll hd s
  others _ hd := State.reexamineAll_delivery_eq_self (.inl hd)

/-- A request that changes the event unit, is answered OK with a result word, and then has domains re-examined (R151 to R153). -/
theorem State.concludes_result {s v : State} {t : Taken} (hv : v = { s.takeRequest t with events := v.events })
    (hb : t.request.kind.returnsBuffer = false) (result : Word) (ds : List DomainId) :
    let u := (v.finish t .ok fun y => { y with result := result }).reexamineAll ds
    s.Concludes t .ok result u ∧ v.events.ExaminedIn ds u := by
  have hconcludes : s.Concludes t .ok result (v.finish t .ok fun y => { y with result := result }) :=
    State.concludes_finish hv hb (fun _ => ⟨rfl, rfl, rfl⟩) rfl
  have hexamined := (v.finish t .ok fun y => { y with result := result }).examinedIn_reexamineAll ds
  rw [State.finish_events] at hexamined
  exact ⟨hconcludes.reexamineAll ds, hexamined⟩

/-! ### Entries that leave an in-service list (R151, R152) -/

/-- The active marks of the items of in-service entries of `d` are cleared. -/
def EventUnit.unmarkAll (d : DomainId) (removed : List InService) (u : EventUnit) : EventUnit :=
  removed.foldl (fun v x => v.setActive (itemOf d x.source) false) u

theorem EventUnit.isActive_unmarkAll (d : DomainId) (removed : List InService) (u : EventUnit) (it : Item) :
    (u.unmarkAll d removed).isActive it = (u.isActive it && removed.all fun x => itemOf d x.source != it) := by
  induction removed generalizing u with
  | nil => simp [EventUnit.unmarkAll]
  | cons x xs ih =>
    change ((u.setActive (itemOf d x.source) false).unmarkAll d xs).isActive it = _
    rw [ih, EventUnit.isActive_setActive, List.all_cons]
    by_cases h : it = itemOf d x.source
    · simp [h]
    · simp [h, bne_iff_ne.2 (Ne.symm h)]

/-- The marks are all that changes. -/
theorem EventUnit.unmarkAll_kept (d : DomainId) (removed : List InService) (u : EventUnit) :
    u.TablesKept (u.unmarkAll d removed) ∧ (u.unmarkAll d removed).delivery = u.delivery
      ∧ ∀ it, (u.unmarkAll d removed).isPending it = u.isPending it := by
  refine foldl_kept (P := fun v => u.TablesKept v ∧ v.delivery = u.delivery ∧ ∀ it, v.isPending it = u.isPending it) ?_ removed u
    ⟨⟨rfl, rfl, rfl⟩, rfl, fun _ => rfl⟩
  intro v x hv
  simpa only [EventUnit.TablesKept, EventUnit.setActive_routes, EventUnit.setActive_descriptors, EventUnit.setActive_limit,
    EventUnit.setActive_delivery, EventUnit.setActive_isPending] using hv

/-- Entries leave the list of `d`: their marks are cleared, and the list holds what is left. -/
def State.endServices (d : DomainId) (removed left : List InService) (s : State) : State :=
  { s with events := s.events.unmarkAll d removed }.mapDelivery d fun y => { y with inService := left }

/-- An in-service entry of a bay source names the destination of that source's route as it stands. -/
def EventUnit.Names (u : EventUnit) (removed : List InService) (e : DomainId) : Prop :=
  ∃ x ∈ removed, x.source.val < 64 ∧ u.routes[x.source].destination = e

theorem EventUnit.routedTo_itemOf (u : EventUnit) (d : DomainId) (n : Fin 68) :
    u.routedTo (itemOf d n) = if n.val < 64 then u.routes[n].destination else d := by
  unfold itemOf
  split <;> rfl

/-- Besides `d` itself, the domains that an entry of `d` brings to a re-examination are those it names. -/
theorem EventUnit.mem_leavers_iff {u : EventUnit} {d e : DomainId} (he : e ≠ d) (x : InService) : e ∈ u.leavers d x ↔ u.Names [x] e := by
  simp only [EventUnit.leavers, EventUnit.Names, EventUnit.routedTo_itemOf, List.mem_cons, List.not_mem_nil, or_false, he, false_or,
    exists_eq_left]
  split
  · next hbay => simp only [hbay, true_and, eq_comm]
  · next hmsg => simp only [hmsg, false_and, he]

theorem EventUnit.mem_flatMap_leavers_iff {u : EventUnit} {d e : DomainId} (he : e ≠ d) (removed : List InService) :
    e ∈ removed.flatMap (u.leavers d) ↔ u.Names removed e := by
  simp only [List.mem_flatMap, EventUnit.mem_leavers_iff he, EventUnit.Names, List.mem_singleton, exists_eq_left]

/-- What COMPLETE and CLEAR_SERVICE of `d` make of the event unit, where `removed` leave its list and `left` stay (R151, R152). -/
structure State.EndsServices (s : State) (d : DomainId) (removed left : List InService) (u : State) : Prop where
  cleared : ∀ x ∈ removed, u.events.isActive (itemOf d x.source) = false
  active : ∀ it, (∀ x ∈ removed, itemOf d x.source ≠ it) → u.events.isActive it = s.events.isActive it
  pending : ∀ it, u.events.isPending it = s.events.isPending it
  tables : s.events.TablesKept u.events
  examined : u.ReexaminedFrom d { s.events.delivery[d] with inService := left }
  others : ∀ e, e ≠ d → (s.events.Names removed e → u.ReexaminedFrom e s.events.delivery[e])
    ∧ (¬ s.events.Names removed e → u.events.delivery[e] = s.events.delivery[e])

theorem State.endsServices_of_examinedIn {s u : State} {d : DomainId} {removed left : List InService} {ds : List DomainId}
    (h : (s.endServices d removed left).events.ExaminedIn ds u) (hd : d ∈ ds) (hds : ∀ e, e ≠ d → (e ∈ ds ↔ s.events.Names removed e)) :
    s.EndsServices d removed left u := by
  obtain ⟨hpending, hactive, htables, hexamined, hothers⟩ := h
  obtain ⟨hunmarked, hdelivery, hlatches⟩ := s.events.unmarkAll_kept d removed
  have hmarks (it : Item) : u.events.isActive it = (s.events.isActive it && removed.all fun x => itemOf d x.source != it) := by
    rw [hactive, State.endServices, State.mapDelivery_isActive, EventUnit.isActive_unmarkAll]
  have hlist : (s.endServices d removed left).events.delivery[d] = { s.events.delivery[d] with inService := left } := by
    rw [State.endServices, State.mapDelivery_same, hdelivery]
  have hother (e : DomainId) (he : e ≠ d) : (s.endServices d removed left).events.delivery[e] = s.events.delivery[e] := by
    rw [State.endServices, State.mapDelivery_other he, hdelivery]
  refine { cleared := fun x hx => ?_, active := fun it hit => ?_, pending := fun it => ?_, tables := ?_, examined := ?_, others := fun e he => ?_ }
  · rw [hmarks, Bool.and_eq_false_iff, List.all_eq_false]
    exact .inr ⟨x, hx, by simp⟩
  · rw [hmarks, List.all_eq_true.2 fun x hx => bne_iff_ne.2 (hit x hx), Bool.and_true]
  · rw [hpending, State.endServices, State.mapDelivery_isPending, hlatches]
  · obtain ⟨hroutes, hdescriptors, hlimit⟩ := htables
    obtain ⟨hroutes', hdescriptors', hlimit'⟩ := hunmarked
    exact ⟨hroutes.trans hroutes', hdescriptors.trans hdescriptors', hlimit.trans hlimit'⟩
  · exact hlist ▸ hexamined d hd
  · rw [← hds e he, ← hother e he]
    exact ⟨hexamined e, hothers e⟩

/-- The entries that leave the list name the same domains after they have left it: no route changes. -/
theorem State.names_endServices (s : State) (d e : DomainId) (removed left named : List InService) :
    (s.endServices d removed left).events.Names named e ↔ s.events.Names named e := by
  obtain ⟨⟨hroutes, -⟩, -⟩ := s.events.unmarkAll_kept d removed
  simp only [EventUnit.Names, State.endServices, State.mapDelivery_events_routes, hroutes]

/-- A request that removes entries from its domain's list, is answered with a result word, and then has its domain and those that the entries name re-examined. -/
theorem State.removal_concludes {s : State} {t : Taken} {removed left : List InService} {ds : List DomainId}
    (hb : t.request.kind.returnsBuffer = false) (result : Word) (hd : t.request.domain ∈ ds)
    (hds : ∀ e, e ≠ t.request.domain → (e ∈ ds ↔ s.events.Names removed e)) :
    let u := (((s.takeRequest t).endServices t.request.domain removed left).finish t .ok fun y => { y with result := result }).reexamineAll ds
    s.Concludes t .ok result u ∧ s.EndsServices t.request.domain removed left u := by
  obtain ⟨hconcludes, hexamined⟩ := State.concludes_result (v := (s.takeRequest t).endServices t.request.domain removed left) rfl hb result ds
  exact ⟨hconcludes, State.endsServices_of_examinedIn (s := s) hexamined hd hds⟩

/-! ### COMPLETE (R151) -/

theorem State.completeEffect_of_nil {s : State} {t : Taken} (h : s.events.delivery[t.request.domain].inService = []) :
    s.completeEffect t = s.finishWith t .nothingInService := by
  simp only [State.completeEffect, h]

theorem State.completeEffect_of_cons {s : State} {t : Taken} {x : InService} {rest : List InService}
    (h : s.events.delivery[t.request.domain].inService = x :: rest) :
    let v := s.endServices t.request.domain [x] rest
    s.completeEffect t = (v.finish t .ok fun y => { y with result := packFields [(x.vector, 0), (x.source, 8)] }).reexamineAll
      (v.events.leavers t.request.domain x) := by
  simp only [State.completeEffect, h]
  rfl

/-- The top entry leaves the list, and the domain of the list and the one that the entry names are re-examined. -/
theorem State.completeEffect_removes {s : State} {t : Taken} {x : InService} {rest : List InService} (hb : t.request.kind.returnsBuffer = false)
    (h : s.events.delivery[t.request.domain].inService = x :: rest) :
    let u := (s.takeRequest t).completeEffect t
    s.Concludes t .ok (packFields [(x.vector, 0), (x.source, 8)]) u ∧ s.EndsServices t.request.domain [x] rest u := by
  rw [State.completeEffect_of_cons (s := s.takeRequest t) h]
  refine State.removal_concludes hb _ List.mem_cons_self fun e he => ?_
  rw [EventUnit.mem_leavers_iff he, State.names_endServices, State.takeRequest_events]

/-- Settles O20: the entry removed is the top one, and its item's source names the second domain of the re-examination. -/
theorem completeEndsNewestService : Obligations.CompleteEndsNewestService := by
  intro s t hn hk he d y
  have hbuffer : t.request.kind.returnsBuffer = false := by rw [hk]; rfl
  have hexec : exec .complete s = .next ((s.takeRequest t).completeEffect t) := congrArg _ (State.serveChecked_of _ hn hk he)
  refine ⟨fun hnil => ⟨_, hexec, ?nothing⟩, fun top rest hcons => ⟨_, packFields [(top.vector, 0), (top.source, 8)], hexec, ?removed⟩⟩
  case nothing =>
    rw [State.completeEffect_of_nil (s := s.takeRequest t) hnil]
    obtain ⟨hserved, hanswered, htables, hbays, hcapture⟩ := State.concludes_finishWith (s := s) hbuffer .nothingInService
    exact ⟨hserved, hanswered, htables, hbays, State.finishWith_events _ _ _, hcapture⟩
  case removed =>
    obtain ⟨⟨hserved, hanswered, htables, hbays, hcapture⟩, ⟨hcleared, hactive, hpending, hkept, hexamined, hothers⟩⟩ :=
      State.completeEffect_removes (s := s) hbuffer hcons
    refine ⟨hserved, ?word, hanswered, hcleared top List.mem_cons_self, fun it hit => hactive it ?one, hpending, hkept, hexamined,
      fun e he => ?named, htables, hbays, hcapture⟩
    case word =>
      rw [packFields_toNat, packSum_cons, packSum_cons, packSum_nil]
      omega
    case one => simpa using Ne.symm hit
    case named => simpa only [EventUnit.Names, List.mem_singleton, exists_eq_left] using hothers e he

/-! ### CLEAR_SERVICE (R152) -/

/-- Every entry leaves the list, and the domain of the list and those that the entries name are re-examined. -/
theorem State.clearServiceEffect_removes {s : State} {t : Taken} (hb : t.request.kind.returnsBuffer = false) :
    let removed := s.events.delivery[t.request.domain].inService
    let u := (s.takeRequest t).clearServiceEffect t
    s.Concludes t .ok (packFields [(removed.length, 0)]) u ∧ s.EndsServices t.request.domain removed [] u := by
  refine State.removal_concludes hb _ List.mem_cons_self fun e he => ?_
  rw [List.mem_cons, or_iff_right he, EventUnit.mem_flatMap_leavers_iff he]
  exact State.names_endServices ..

/-- Entries whose priorities are at least 1 and decrease are at most as many as any bound of their priorities. -/
theorem length_le_of_priorities {l : List InService} (hdecreasing : l.Pairwise fun newer older => older.priority < newer.priority)
    (hpositive : ∀ x ∈ l, (1 : Fin 16) ≤ x.priority) {n : Nat} (hbound : ∀ x ∈ l, x.priority.val ≤ n) : l.length ≤ n := by
  induction l generalizing n with
  | nil => exact Nat.zero_le n
  | cons x xs ih =>
    obtain ⟨hbelow, hrest⟩ := List.pairwise_cons.1 hdecreasing
    have hx : 1 ≤ x.priority.val := hpositive x List.mem_cons_self
    have hxn : x.priority.val ≤ n := hbound x List.mem_cons_self
    have hxs : xs.length ≤ x.priority.val - 1 :=
      ih hrest (fun y hy => hpositive y (List.mem_cons_of_mem x hy)) fun y hy => Nat.le_sub_one_of_lt (hbelow y hy)
    rw [List.length_cons]
    omega

/-- A nested list is no longer than the highest priority, 15 (R143). -/
theorem EventUnit.Nested.length_le {u : EventUnit} (h : u.Nested) (d : DomainId) : u.delivery[d].inService.length ≤ 15 := by
  obtain ⟨hdecreasing, hpositive⟩ := h d
  exact length_le_of_priorities hdecreasing hpositive fun x _ => Nat.le_of_lt_succ x.priority.isLt

/-- Settles O21: every entry of the list is removed, and the bay sources among them name the other domains of the re-examination. -/
theorem clearServiceEmptiesList : Obligations.ClearServiceEmptiesList := by
  intro s t hn hk he d y named
  have hbuffer : t.request.kind.returnsBuffer = false := by rw [hk]; rfl
  have hexec : exec .clearService s = .next ((s.takeRequest t).clearServiceEffect t) := congrArg _ (State.serveChecked_of _ hn hk he)
  have hcount : packFields [(y.inService.length, 0)] = BitVec.ofNat 32 y.inService.length := by simp [packFields]
  obtain ⟨⟨hserved, hanswered, htables, hbays, hcapture⟩, ⟨hcleared, hactive, hpending, hkept, hexamined, hothers⟩⟩ :=
    State.clearServiceEffect_removes (s := s) hbuffer
  exact ⟨fun hnested => hnested.length_le d, _, hexec, hserved, hcount ▸ hanswered, hcleared, hactive, hpending, hkept, hexamined, hothers,
    htables, hbays, hcapture⟩

/-! ### THRESHOLD (R153) -/

/-- The threshold is replaced and the old one answered, and the domain is re-examined. -/
theorem State.thresholdEffect_replaces {s : State} {t : Taken} (hb : t.request.kind.returnsBuffer = false) :
    let d := t.request.domain
    let u := (s.takeRequest t).thresholdEffect t
    s.Concludes t .ok (packFields [(s.events.delivery[d].threshold, 0)]) u
      ∧ (s.mapDelivery d fun y => { y with threshold := Fin.ofNat 16 t.request.aux.toNat }).events.ExaminedIn [d] u :=
  State.concludes_result rfl hb _ [t.request.domain]

/-- Settles O22: a value of at most 15 is a threshold as it stands. -/
theorem thresholdIsReplaced : Obligations.ThresholdIsReplaced := by
  intro s t hn hk he haux d y
  have hbuffer : t.request.kind.returnsBuffer = false := by rw [hk]; rfl
  have hexec : exec .threshold s = .next ((s.takeRequest t).thresholdEffect t) := congrArg _ (State.serveChecked_of _ hn hk he)
  obtain ⟨⟨hserved, hanswered, htables, hbays, hcapture⟩, ⟨hpending, hactive, hkept, hexamined, hothers⟩⟩ :=
    State.thresholdEffect_replaces (s := s) hbuffer
  refine ⟨_, Fin.ofNat 16 t.request.aux.toNat, packFields [(y.threshold, 0)], hexec, hserved, Nat.mod_eq_of_lt (by omega), ?word, hanswered, ?self,
    fun e hed => ?other, fun it => ⟨?pending, ?active⟩, hkept, htables, hbays, hcapture⟩
  case word =>
    rw [packFields_toNat, packSum_cons, packSum_nil]
    omega
  case self =>
    have hself := hexamined d List.mem_cons_self
    rwa [State.mapDelivery_same] at hself
  case other => rw [hothers e (by simpa using hed), State.mapDelivery_other hed]
  case pending => rw [hpending, State.mapDelivery_isPending]
  case active => rw [hactive, State.mapDelivery_isActive]

end Sys2Proof.Machine

/-! What reaches the error capture (10.4): what offers make of the record, and that no command but the power-on reset and CAPTURE_CLEAR does anything to it but offer. -/

namespace Sys2Proof.Machine

/-! ### Offers (R171) -/

/-- What an offer makes of the capture record: an invalid one is filled, a valid one keeps its offer and counts one more, at most to 255 (R171). -/
def Offer.captured (o : Offer) : Option CaptureRecord → Option CaptureRecord
  | none => some { offer := o, more := 0 }
  | some c => some { c with more := if c.more < Config.moreMax then c.more + 1 else c.more }

theorem Offer.captured_valid (o : Offer) (c : CaptureRecord) :
    ∃ n, o.captured (some c) = some { c with more := n } ∧ c.more ≤ n ∧ (c.more ≤ 255 → n ≤ 255) := by
  refine ⟨if c.more < 255 then c.more + 1 else c.more, rfl, ?_⟩
  split <;> omega

theorem State.offer_capture (o : Offer) (s : State) : (s.offer o).capture = o.captured s.capture := by
  cases h : s.capture with
  | none => exact s.offer_invalid o h
  | some c => exact s.offer_valid o c h

/-- From `s` to `u` nothing has reached the capture record but offers. -/
def State.OffersTo (s u : State) : Prop := ∃ offers : List Offer, u.capture = offers.foldl (fun record o => o.captured record) s.capture

/-- Offers leave a valid record its first offer, and its more-count never falls and stays at most 255 (R171). -/
theorem State.OffersTo.first_kept {s u : State} (h : s.OffersTo u) {c : CaptureRecord} (hc : s.capture = some c) :
    ∃ n, u.capture = some { c with more := n } ∧ c.more ≤ n ∧ (c.more ≤ 255 → n ≤ 255) := by
  obtain ⟨offers, hu⟩ := h
  rw [hu, hc]
  clear hu hc
  induction offers generalizing c with
  | nil => exact ⟨c.more, rfl, Nat.le_refl _, id⟩
  | cons o os ih =>
    obtain ⟨m, hm, hcm, hm255⟩ := o.captured_valid c
    obtain ⟨n, hn, hmn, hn255⟩ := ih (c := { c with more := m })
    refine ⟨n, ?_, Nat.le_trans hcm hmn, fun hmax => hn255 (hm255 hmax)⟩
    rw [List.foldl_cons, hm, hn]

namespace State.OffersTo

variable {s u v : State}

theorem of_capture (h : u.capture = s.capture) : s.OffersTo u := ⟨[], h⟩

theorem refl (s : State) : s.OffersTo s := of_capture rfl

theorem congr (h : s.OffersTo u) (hv : v.capture = u.capture) : s.OffersTo v := by
  obtain ⟨offers, hu⟩ := h
  exact ⟨offers, hv.trans hu⟩

theorem offer (o : Offer) (h : s.OffersTo u) : s.OffersTo (u.offer o) := by
  obtain ⟨offers, hu⟩ := h
  refine ⟨offers ++ [o], ?_⟩
  rw [State.offer_capture, hu, List.foldl_append]
  rfl

/-- The tracker's shared operations do nothing to the capture record but offer. -/
theorem workKept (s : State) : WorkKept s.OffersTo where
  tracker _ _ h := h.congr rfl
  offer _ o h := h.offer o
  latch u it h := h.congr (u.latch_capture it)
  enqueue _ _ _ _ h := h.congr rfl
  dequeue _ _ _ h := h.congr rfl

theorem mapBay (b : BayId) (f : Bay → Bay) (h : s.OffersTo u) : s.OffersTo (u.mapBay b f) := h.congr rfl

theorem mapEntry (e : EntryId) (f : Entry → Entry) (h : s.OffersTo u) : s.OffersTo (u.mapEntry e f) := h.congr rfl

theorem raise (b : BayId) (k : CondKind) (h : s.OffersTo u) : s.OffersTo (u.raise b k) := h.congr (u.raise_capture b k)

theorem endEntry (b : BayId) (e : EntryId) (st : Status) (h : s.OffersTo u) : s.OffersTo (u.endEntry b e st) := (workKept s).endEntry b e st u h

theorem faultBay (b : BayId) (c : FaultCause) (h : s.OffersTo u) : s.OffersTo (u.faultBay b c) := (workKept s).faultBay b c u (h.mapBay b _)

theorem removal (b : BayId) (h : s.OffersTo u) : s.OffersTo (u.removal b) := (workKept s).removal b u (h.mapBay b _)

theorem resetBay (b : BayId) (h : s.OffersTo u) : s.OffersTo (u.resetBay b) := (workKept s).resetBay b u (h.mapBay b _)

theorem finishWith (t : Taken) (st : Status) (h : s.OffersTo u) : s.OffersTo (u.finishWith t st) := h.congr (u.finishWith_capture t st)

theorem reexamine (d : DomainId) (h : s.OffersTo u) : s.OffersTo (u.reexamine d) := h.congr (u.reexamine_capture d)

end State.OffersTo

/-! ### The services of the arbiter -/

theorem State.admitSync_offersTo (t : Taken) (s : State) : s.OffersTo (s.admitSync t) := by
  unfold State.admitSync
  split
  · exact .of_capture (State.examine_nil_capture _ _)
  · exact (State.OffersTo.refl s).finishWith t _

@[simp] theorem State.claimResponse_capture (t : Taken) (v : Fin 256) (src p : Nat) (handler : Word) (f : Flags) (s : State) :
    (s.claimResponse t v src p handler f).capture = s.capture := s.finish_capture t _ _

/-- A claim offers where its vector is not usable (R149). -/
theorem State.claimItem_offersTo (t : Taken) (d : DomainId) (it : Item) (s : State) : s.OffersTo (s.claimItem t d it) := by
  unfold State.claimItem
  dsimp only
  split
  · split <;> exact .of_capture (State.claimResponse_capture _ _ _ _ _ _ _)
  · have hcleared : s.OffersTo { s with events := s.events.setPending it false } := .of_capture rfl
    exact (hcleared.offer _).congr (State.claimResponse_capture _ _ _ _ _ _ _)

theorem State.claimEffect_offersTo (t : Taken) (s : State) : s.OffersTo (s.claimEffect t) := by
  unfold State.claimEffect
  dsimp only
  refine State.OffersTo.reexamine _ ?_
  split
  · exact .of_capture (State.claimResponse_capture _ _ _ _ _ _ _)
  · exact State.claimItem_offersTo t _ _ (s.clearSignal t.request.domain)

@[simp] theorem State.completeEffect_capture (t : Taken) (s : State) : (s.completeEffect t).capture = s.capture := by
  unfold State.completeEffect
  dsimp only
  split <;> simp

@[simp] theorem State.clearServiceEffect_capture (t : Taken) (s : State) : (s.clearServiceEffect t).capture = s.capture := by
  simp [State.clearServiceEffect]

@[simp] theorem State.thresholdEffect_capture (t : Taken) (s : State) : (s.thresholdEffect t).capture = s.capture := by
  simp [State.thresholdEffect]

@[simp] theorem State.messageEffect_capture (t : Taken) (s : State) : (s.messageEffect t).capture = s.capture :=
  (State.finish_capture _ _ _ _).trans (foldl_kept (P := fun u => u.capture = s.capture) (fun u _ hu => (u.latch_capture _).trans hu) _ s rfl)

@[simp] theorem State.messageChecked_capture (t : Taken) (s : State) : (s.messageChecked t).capture = s.capture := by
  unfold State.messageChecked
  dsimp only
  split
  · exact s.finishWith_capture t _
  · split
    · exact s.messageEffect_capture t
    · exact s.finishWith_capture t _

@[simp] theorem State.admitRead_capture (t : Taken) (s : State) : (s.admitRead t).capture = s.capture := by
  unfold State.admitRead
  split
  · split
    · exact s.finish_capture t _ _
    · exact s.finishWith_capture t _
  · exact s.finishWith_capture t _

@[simp] theorem State.withdraw_capture (b : BayId) (k : Fin 8) (s : State) : (s.withdraw b k).capture = s.capture := by
  unfold State.withdraw
  dsimp only
  split
  · exact State.reexamine_capture _ _
  · rfl

theorem State.withdrawAll_capture (b : BayId) (ks : List (Fin 8)) (s : State) : (ks.foldl (fun s k => s.withdraw b k) s).capture = s.capture :=
  foldl_kept (P := fun u => u.capture = s.capture) (fun u k hu => (u.withdraw_capture b k).trans hu) ks s rfl

/-- What a CTL_WRITE or a BAY_ACTION applies, where its record or the bay's state lets it, does nothing to the capture record but offer. -/
def AppliesByOffers (apply : Request → State → Option State) : Prop := ∀ (r : Request) (s s' : State), apply r s = some s' → s.OffersTo s'

theorem appliesByOffers_none : AppliesByOffers fun _ _ => none := fun _ _ _ h => nomatch h

/-- A record that is written where its words have its form reaches a table, and not the capture. -/
theorem appliesByOffers_map {α : Type} {record : Request → State → Option α} {write : Request → State → α → State}
    (hw : ∀ (r : Request) (s : State) (x : α), (write r s x).capture = s.capture) : AppliesByOffers fun r s => (record r s).map (write r s) := by
  intro r s s' h
  obtain ⟨x, -, rfl⟩ := Option.map_eq_some_iff.1 h
  exact .of_capture (hw r s x)

theorem writeAperture_appliesByOffers : AppliesByOffers writeAperture := appliesByOffers_map fun _ _ _ => rfl

theorem writeDomain_appliesByOffers : AppliesByOffers writeDomain := appliesByOffers_map fun _ _ _ => by
  dsimp only
  split
  · rfl
  · exact State.reexamine_capture _ _

theorem writeGrant_appliesByOffers : AppliesByOffers writeGrant := appliesByOffers_map fun _ _ _ => rfl

theorem writeRoute_appliesByOffers : AppliesByOffers writeRoute := appliesByOffers_map fun _ _ _ => State.reexamineAll_capture _ _

theorem writeDescriptor_appliesByOffers : AppliesByOffers writeDescriptor := appliesByOffers_map fun _ _ _ => rfl

theorem writeDescLimit_appliesByOffers : AppliesByOffers writeDescLimit := appliesByOffers_map fun _ _ _ => rfl

theorem writeBayPolicy_appliesByOffers : AppliesByOffers writeBayPolicy := appliesByOffers_map fun _ _ _ => State.withdrawAll_capture _ _ _

theorem onBay_appliesByOffers (f : Bay → Option Bay) : AppliesByOffers (onBay f) := appliesByOffers_map fun _ _ _ => rfl

theorem actReset_appliesByOffers : AppliesByOffers actReset := by
  intro r s s' h
  unfold actReset at h
  split at h
  · cases h; exact (State.OffersTo.refl s).resetBay _
  · cases h

theorem State.admitWrite_offersTo {apply : Request → State → Option State} (ha : AppliesByOffers apply) (t : Taken) (s : State) :
    s.OffersTo (s.admitWrite apply t) := by
  have hrefused (st : Status) : s.OffersTo (s.finishWith t st) := (State.OffersTo.refl s).finishWith t st
  unfold State.admitWrite
  split
  · exact hrefused _
  · split
    · split
      · split
        · next s' hs' => exact (ha _ s s' hs').finishWith t _
        · exact hrefused _
      · exact hrefused _
    · exact hrefused _

theorem State.admitAction_offersTo {act : Request → State → Option State} (ha : AppliesByOffers act) (st : Status) (t : Taken) (s : State) :
    s.OffersTo (s.admitAction act st t) := by
  have hrefused (st : Status) : s.OffersTo (s.finishWith t st) := (State.OffersTo.refl s).finishWith t st
  unfold State.admitAction
  split
  · exact hrefused _
  · split
    · split
      · next s' hs' => exact (ha _ s s' hs').finishWith t _
      · exact hrefused _
    · exact hrefused _

/-- A service does to the capture record what it does to the request it has taken, if there is one. -/
theorem State.serve_offersTo {act : Taken → State → State} (ha : ∀ (t : Taken) (u : State), u.OffersTo (act t u)) (want : Request → Bool) (s : State) :
    s.OffersTo (s.serve want act) := by
  unfold State.serve
  split
  · next t _ =>
    split
    · exact ha t (s.takeRequest t)
    · exact .refl s
  · exact .refl s

theorem State.serveData_offersTo (k : ReqKind) (s : State) : s.OffersTo (s.serveData k) :=
  State.serve_offersTo (fun t u => (State.OffersTo.workKept u).admission t u (.refl u)) _ s

theorem State.serveChecked_offersTo {act : Taken → State → State} (ha : ∀ (t : Taken) (u : State), u.OffersTo (act t u)) (k : ReqKind) (s : State) :
    s.OffersTo (s.serveChecked k act) := by
  refine State.serve_offersTo (fun t u => ?_) _ s
  split
  · exact ha t u
  · exact (State.OffersTo.refl u).finishWith t _

theorem State.serveWrite_offersTo {apply : Request → State → Option State} (ha : AppliesByOffers apply) (g : Nat) (s : State) :
    s.OffersTo (s.serveWrite g apply) := State.serve_offersTo (State.admitWrite_offersTo ha) _ s

theorem State.serveAction_offersTo {act : Request → State → Option State} (ha : AppliesByOffers act) (c : Nat) (s : State) :
    s.OffersTo (s.serveAction c act) := State.serve_offersTo (State.admitAction_offersTo ha .badState) _ s

/-! ### The uplink -/

@[simp] theorem State.dropEntry_capture (e : EntryId) (s : State) : (s.dropEntry e).capture = s.capture := by
  unfold State.dropEntry
  split <;> rfl

@[simp] theorem State.discardRunning_capture (e : EntryId) (s : State) : (s.discardRunning e).capture = s.capture := by
  unfold State.discardRunning
  split
  · split
    · rfl
    · exact s.dropEntry_capture e
  · exact s.dropEntry_capture e

@[simp] theorem State.dropResponse_capture (e : EntryId) (s : State) : (s.dropResponse e).capture = s.capture := rfl

@[simp] theorem State.linkResetEntry_capture (e : EntryId) (s : State) : (s.linkResetEntry e).capture = s.capture := by
  unfold State.linkResetEntry
  dsimp only
  split
  case h_1 | h_6 | h_7 => rfl
  all_goals split <;> simp

/-- A link reset lets every HELD entry go, and a posted write whose release fails offers (R54, R64). -/
theorem State.linkReset_offersTo (s : State) : s.OffersTo s.linkReset := by
  have hentries (v : State) : (v.tracker.taken.foldl (fun s e => s.linkResetEntry e) v).capture = v.capture :=
    foldl_kept (P := fun u => u.capture = v.capture) (fun u e hu => (u.linkResetEntry_capture e).trans hu) _ v rfl
  have htracker (v : State) : v.OffersTo v.trackerLinkReset := (State.OffersTo.workKept v).examine _ _ _ (.of_capture (hentries v))
  have hsettled (v : State) : v.settleAll.capture = v.capture :=
    foldl_kept (P := fun u => u.capture = v.capture) (fun u b hu => (u.settle_capture b).trans hu) _ v rfl
  have hevents (v : State) : v.eventLinkReset.capture = v.capture := State.reexamineAll_capture _ _
  exact (htracker { s with uplink := s.uplink.lost, tables := { s.tables with lastServed := 7 } }).congr ((hevents _).trans (hsettled _))

/-- A packet of fewer than three words is offered (R159). -/
theorem State.takePacket_offersTo (words : List Word) (s : State) : s.OffersTo (s.takePacket words) := by
  unfold State.takePacket
  split
  · split
    · unfold State.intakeRequest
      split <;> exact .of_capture rfl
    · exact .of_capture rfl
  · exact (State.OffersTo.refl s).offer _

@[simp] theorem State.takeResponse_capture (e : EntryId) (s : State) : (s.takeResponse e).capture = s.capture := by
  unfold State.takeResponse
  dsimp only
  split
  · exact State.examine_nil_capture _ _
  · rfl

@[simp] theorem State.transmit_capture (s : State) : s.transmit.capture = s.capture := by
  unfold State.transmit
  split
  · rfl
  · split
    · rfl
    · split
      · exact State.takeResponse_capture _ _
      · rfl

/-! ### The bay bus -/

namespace State.OffersTo

variable {s u : State}

theorem beginEntry (b : BayId) (e : EntryId) (h : s.OffersTo u) : s.OffersTo (u.beginEntry b e) := by
  unfold State.beginEntry
  dsimp only
  split
  · split
    · exact (h.endEntry b e _).mapBay b _
    · split
      · exact (h.endEntry b e _).mapBay b _
      · exact (h.mapEntry e _).mapBay b _
  · exact h

theorem continueEntry (b : BayId) (e : EntryId) (h : s.OffersTo u) : s.OffersTo (u.continueEntry b e) := by
  unfold State.continueEntry
  split
  · split
    · exact (h.mapEntry e _).beginEntry b _
    · exact h.beginEntry b e
  · exact h.beginEntry b e

theorem idlePoll (b : BayId) (h : s.OffersTo u) : s.OffersTo (u.idlePoll b) := by
  unfold State.idlePoll
  split
  · exact h.mapBay b _
  · exact h

theorem serveEntries (b : BayId) (h : s.OffersTo u) : s.OffersTo (u.serveEntries b) := by
  unfold State.serveEntries
  split
  · exact h.idlePoll b
  · split
    · exact h.continueEntry b _
    · split
      · exact h.beginEntry b _
      · split
        · exact h.beginEntry b _
        · exact h.idlePoll b

theorem arbitrate (b : BayId) (h : s.OffersTo u) : s.OffersTo (u.arbitrate b) := by
  have hchosen := h.mapBay b fun y => { y with forced := y.forcedRun, due := false }
  unfold State.arbitrate
  dsimp only
  split
  · exact hchosen.mapBay b _
  · exact hchosen.mapBay b _
  · exact hchosen.serveEntries b

theorem unitDone (b : BayId) (e : EntryId) (bytes : List Byte) (h : s.OffersTo u) : s.OffersTo (u.unitDone b e bytes) := by
  unfold State.unitDone
  dsimp only
  split
  case h_1 | h_2 =>
    split
    · exact (h.mapEntry e _).endEntry b e _
    · exact h.mapEntry e _
  case h_3 => exact (h.mapEntry e _).endEntry b e _
  case h_4 => exact h.endEntry b e _

theorem unitEnd (b : BayId) (e : EntryId) (r : Bay × UnitResult) (h : s.OffersTo u) : s.OffersTo (u.unitEnd b e r) := by
  have hbay := h.mapBay b fun _ => r.1
  unfold State.unitEnd State.unitResult
  split
  · exact hbay
  · exact hbay.mapEntry e _
  · exact hbay.unitDone b e _
  · exact hbay.endEntry b e _

theorem pollAck (b : BayId) (w : StatusWord) (h : s.OffersTo u) : s.OffersTo (u.pollAck b w) := by
  have hkept := (foldl_kept (fun _ k hv => raise b k hv) (risesOf u.bays[b].lastStatus w) _ (h.mapBay b Bay.payPoll)).mapBay b
    fun y => { y with lastStatus := w }
  unfold State.pollAck
  dsimp only
  split
  · exact hkept.faultBay b _
  · exact hkept

theorem pollFailure (b : BayId) (h : s.OffersTo u) : s.OffersTo (u.pollFailure b) := (h.mapBay b _).offer _

theorem arbiterEnd (b : BayId) (op : ExchangeOp) (h : s.OffersTo u) : s.OffersTo (u.arbiterEnd b op) := by
  unfold State.arbiterEnd
  split
  · exact h.mapBay b _
  · exact h

theorem answered (b : BayId) (op : ExchangeOp) (a : Answer) (h : s.OffersTo u) : s.OffersTo (u.answered b op a) := by
  unfold State.answered
  split
  · exact h.pollAck b _
  · exact h.pollFailure b
  · split
    · split <;> exact h.unitEnd b _ _
    · exact h.arbiterEnd b _

theorem timedOut (b : BayId) (op : ExchangeOp) (h : s.OffersTo u) : s.OffersTo (u.timedOut b op) := by
  unfold State.timedOut
  split
  · exact h.pollFailure b
  · split
    · exact h.unitEnd b _ _
    · exact h.arbiterEnd b _

end State.OffersTo

theorem execBayDecisionPoint_offersTo (b : BayId) (s : State) : ∃ u, execBayDecisionPoint b s = .next u ∧ s.OffersTo u := by
  unfold execBayDecisionPoint
  split
  · exact ⟨_, rfl, ((State.OffersTo.refl s).arbitrate b).congr rfl⟩
  · exact ⟨s, rfl, .refl s⟩

theorem execExchangeAnswer_offersTo (b : BayId) (late : Bool) (a : Answer) (s : State) : ∃ u, execExchangeAnswer b late a s = .next u ∧ s.OffersTo u := by
  unfold execExchangeAnswer
  split
  · exact ⟨_, rfl, (((State.OffersTo.refl s).mapBay b _).answered b _ a).mapBay b _⟩
  · exact ⟨s, rfl, .refl s⟩

theorem execExchangeTimeout_offersTo (b : BayId) (s : State) : ∃ u, execExchangeTimeout b s = .next u ∧ s.OffersTo u := by
  unfold execExchangeTimeout
  split
  · next x _ =>
    have hended : s.OffersTo ((s.mapBay b (Bay.endExchange (s.bays[b].timeouts + 1))).timedOut b x.op) :=
      ((State.OffersTo.refl s).mapBay b _).timedOut b x.op
    refine ⟨_, rfl, State.OffersTo.mapBay b _ ?_⟩
    split
    · exact (hended.faultBay b _).congr rfl
    · exact hended
  · exact ⟨s, rfl, .refl s⟩

theorem execPollTimerExpiry_offersTo (b : BayId) (s : State) : ∃ u, execPollTimerExpiry b s = .next u ∧ s.OffersTo u := by
  unfold execPollTimerExpiry
  split
  · refine ⟨_, rfl, ?_⟩
    split
    · exact .of_capture rfl
    · exact .of_capture (State.raise_capture _ _ _)
  · exact ⟨s, rfl, .refl s⟩

/-! ### The life of a module -/

/-- A command that acts where its timer or its state is as it says, and otherwise changes nothing, offers where it acts alone. -/
theorem guarded_offersTo {c : Prop} [Decidable c] {s v : State} (h : s.OffersTo v) :
    ∃ u, (if c then .next v else .next s : Host.Outcome State Fault Refusal) = .next u ∧ s.OffersTo u := by
  split
  · exact ⟨v, rfl, h⟩
  · exact ⟨s, rfl, .refl s⟩

theorem State.OffersTo.contactChanged {s u : State} (b : BayId) (made : Bool) (h : s.OffersTo u) : s.OffersTo (u.contactChanged b made) := by
  unfold State.contactChanged
  split <;> split
  · exact h.mapBay b _
  · exact h
  · exact h
  · exact h.mapBay b _
  · exact h
  · exact h.removal b

theorem State.OffersTo.identityRead {s u : State} (b : BayId) (r : IdentityRecord) (h : s.OffersTo u) : s.OffersTo (u.identityRead b r) := by
  unfold State.identityRead
  dsimp only
  split
  · exact State.OffersTo.raise b _ ((h.mapBay b _).mapBay b _)
  · exact (h.mapBay b _).faultBay b _

/-! ### Every command (R171, R172) -/

/-- Every command but the power-on reset and CAPTURE_CLEAR does nothing to the capture record but offer. -/
theorem exec_offersTo {i : Instr} (hreset : i ≠ .powerOnReset) (hclear : i ≠ .captureClear) (s : State) : ∃ u, exec i s = .next u ∧ s.OffersTo u := by
  have hself := State.OffersTo.refl s
  cases i with
  | powerOnReset => exact absurd rfl hreset
  | captureClear => exact absurd rfl hclear
  | linkGained => exact ⟨_, rfl, .of_capture rfl⟩
  | linkLost =>
    simp only [exec, execLinkLost]
    split
    · exact ⟨_, rfl, s.linkReset_offersTo⟩
    · exact ⟨s, rfl, hself⟩
  | packetReceived words => exact guarded_offersTo (s.takePacket_offersTo words)
  | transmitChoice =>
    simp only [exec, execTransmitChoice]
    split
    · exact ⟨_, rfl, .of_capture s.transmit_capture⟩
    · exact ⟨s, rfl, hself⟩
  | read | write | blockRead | blockWrite | fetchAdd => exact ⟨_, rfl, State.serveData_offersTo _ s⟩
  | sync => exact ⟨_, rfl, State.serve_offersTo State.admitSync_offersTo _ s⟩
  | claim => exact ⟨_, rfl, State.serveChecked_offersTo State.claimEffect_offersTo _ s⟩
  | complete => exact ⟨_, rfl, State.serveChecked_offersTo (fun t u => .of_capture (u.completeEffect_capture t)) _ s⟩
  | threshold => exact ⟨_, rfl, State.serveChecked_offersTo (fun t u => .of_capture (u.thresholdEffect_capture t)) _ s⟩
  | message => exact ⟨_, rfl, State.serveChecked_offersTo (fun t u => .of_capture (u.messageChecked_capture t)) _ s⟩
  | clearService => exact ⟨_, rfl, State.serveChecked_offersTo (fun t u => .of_capture (u.clearServiceEffect_capture t)) _ s⟩
  | ctlRead => exact ⟨_, rfl, State.serveChecked_offersTo (fun t u => .of_capture (u.admitRead_capture t)) _ s⟩
  | ctlWriteAperture => exact ⟨_, rfl, State.serveWrite_offersTo writeAperture_appliesByOffers 1 s⟩
  | ctlWriteDomain => exact ⟨_, rfl, State.serveWrite_offersTo writeDomain_appliesByOffers 2 s⟩
  | ctlWriteGrant => exact ⟨_, rfl, State.serveWrite_offersTo writeGrant_appliesByOffers 3 s⟩
  | ctlWriteRoute => exact ⟨_, rfl, State.serveWrite_offersTo writeRoute_appliesByOffers 4 s⟩
  | ctlWriteDescriptor => exact ⟨_, rfl, State.serveWrite_offersTo writeDescriptor_appliesByOffers 5 s⟩
  | ctlWriteDescLimit => exact ⟨_, rfl, State.serveWrite_offersTo writeDescLimit_appliesByOffers 6 s⟩
  | ctlWriteBayPolicy => exact ⟨_, rfl, State.serveWrite_offersTo writeBayPolicy_appliesByOffers 7 s⟩
  | ctlWriteOtherGroup => exact ⟨_, rfl, State.serve_offersTo (State.admitWrite_offersTo appliesByOffers_none) _ s⟩
  | powerOn | powerOff | auxOn | auxOff | retry | parkLight | parkDeep | wake =>
    exact ⟨_, rfl, State.serveAction_offersTo (onBay_appliesByOffers _) _ s⟩
  | reset => exact ⟨_, rfl, State.serveAction_offersTo actReset_appliesByOffers 5 s⟩
  | bayActionUnknown => exact ⟨_, rfl, State.serve_offersTo (State.admitAction_offersTo appliesByOffers_none .badRecord) _ s⟩
  | bayDecisionPoint b => exact execBayDecisionPoint_offersTo b s
  | exchangeAnswer b late a => exact execExchangeAnswer_offersTo b late a s
  | exchangeTimeout b => exact execExchangeTimeout_offersTo b s
  | dwellExpiry b _ | recoveryExpiry b _ | railGood b _ | moduleReady b _ => exact ⟨_, rfl, .of_capture rfl⟩
  | pollTimerExpiry b => exact execPollTimerExpiry_offersTo b s
  | wakeTimerExpiry b => exact guarded_offersTo (.of_capture rfl)
  | presenceContactChange b c made =>
    simp only [exec, execPresenceContactChange]
    split
    · exact ⟨s, rfl, hself⟩
    · exact ⟨_, rfl, (hself.mapBay b _).contactChanged b made⟩
  | debounceExpiry b => exact guarded_offersTo ((hself.raise b _).mapBay b _)
  | railTimerExpiry b => exact guarded_offersTo (hself.faultBay b _)
  | holdTimerExpiry b => exact guarded_offersTo (hself.mapBay b _)
  | readyTimerExpiry b => exact guarded_offersTo (hself.faultBay b _)
  | idNoAnswer slot => exact guarded_offersTo ((hself.mapBay slot.bay _).faultBay slot.bay _)
  | identityReadEnd b bytes => exact guarded_offersTo (hself.identityRead b _)

end Sys2Proof.Machine

/-! The error capture cleared and filled (10.3, 10.4): the answer of CAPTURE_CLEAR, what an abort without posted writes offers, and from it the third poll timeout. -/

namespace Sys2Proof.Machine

/-! ### CAPTURE_CLEAR (R172) -/

/-- CAPTURE_CLEAR makes the record invalid before it is answered, and its answer does nothing to the record. -/
theorem State.captureClear_of_takesAction {s : State} {t : Taken} (h : s.TakesAction t 10) :
    exec .captureClear s = .next ({ s.takeRequest t with capture := none }.finishWith t .ok) :=
  congrArg _ (State.serveAction_of_takesAction actCaptureClear h)

theorem State.captureClear_served (s : State) (t : Taken) : s.Served t ({ s.takeRequest t with capture := none }.finishWith t .ok) :=
  State.served_finish (u := { s.takeRequest t with capture := none }) rfl rfl rfl rfl fun _ => ⟨rfl, rfl, rfl⟩

theorem State.captureClear_answered {s : State} {t : Taken} (hk : t.request.kind = .bayAction) :
    s.AnsweredWith t .ok {} 0 [] ({ s.takeRequest t with capture := none }.finishWith t .ok) := by
  have hanswered : s.AnsweredWith t .ok {} 0 (if t.request.kind.returnsBuffer then t.request.writeBuffer else [])
      ({ s.takeRequest t with capture := none }.finishWith t .ok) :=
    State.answered_finish (u := { s.takeRequest t with capture := none }) rfl id rfl rfl
  rwa [hk] at hanswered

/-! ### An abort without posted writes (R62) -/

/-- The entries of a list are not posted. -/
def Tracker.NonePosted (t : Tracker) (es : List EntryId) : Prop := ∀ e ∈ es, t.entries[e].posted = false

theorem Tracker.NonePosted.mapEntry {s : State} {es : List EntryId} (h : s.tracker.NonePosted es) {e : EntryId} {f : Entry → Entry}
    (hf : (f s.tracker.entries[e]).posted = false) : (s.mapEntry e f).tracker.NonePosted es := by
  intro x hx
  rw [State.mapEntry_get]
  split
  · exact hf
  · exact h x hx

/-- The end of an entry that is not posted offers nothing, and makes no entry posted (R58, R65). -/
theorem State.stopEntry_of_not_posted {s : State} {e : EntryId} (he : s.tracker.entries[e].posted = false) (st : Status) {es : List EntryId}
    (hes : s.tracker.NonePosted es) : (s.stopEntry e st).capture = s.capture ∧ (s.stopEntry e st).tracker.NonePosted es := by
  have hfreed : (s.freeEntry e).tracker.NonePosted es := hes.mapEntry (f := fun _ => Entry.blank) rfl
  have hdone : (s.goDone e st).tracker.NonePosted es := hes.mapEntry he
  rw [State.stopEntry, he, if_neg Bool.false_ne_true]
  split
  · exact ⟨rfl, hfreed⟩
  · exact ⟨rfl, hdone⟩

theorem State.stopAll_capture_of_nonePosted (st : Status) {es : List EntryId} {s : State} (h : s.tracker.NonePosted es) :
    (es.foldl (fun s e => s.stopEntry e st) s).capture = s.capture := by
  induction es generalizing s with
  | nil => rfl
  | cons e es ih =>
    obtain ⟨he, hes⟩ := List.forall_mem_cons.1 h
    obtain ⟨hcapture, hnone⟩ := State.stopEntry_of_not_posted he st hes
    rw [List.foldl_cons, ih hnone, hcapture]

@[simp] theorem State.markStale_capture (b : BayId) (s : State) : (s.markStale b).capture = s.capture := by
  unfold State.markStale
  refine foldl_kept (P := fun u => u.capture = s.capture) (fun u e hu => ?_) _ s rfl
  split <;> exact hu

/-- An abort of a queue without posted writes examines no hold list, and offers nothing. -/
theorem State.abortBay_capture_of_nonePosted {s : State} {b : BayId} (h : s.tracker.NonePosted s.bays[b].queue) (f : Bay → Bay) (st : Status) :
    (s.abortBay b f st).capture = s.capture := by
  have hposters : (s.bays[b].queue.filter fun e => s.tracker.entries[e].posted) = [] :=
    List.filter_eq_nil_iff.2 fun e he => Bool.eq_false_iff.1 (h e he)
  have hstopped := State.stopAll_capture_of_nonePosted st (s := s.mapBay b f) h
  simp only [State.abortBay, State.letGo, hposters, List.map_nil, State.examineHolds_nil, State.readyThese_capture, State.examineSyncs_capture,
    State.markStale_capture, hstopped, State.mapBay_capture]

/-- A fault of a bay without posted writes offers its cause alone (R119). -/
theorem State.faultBay_capture_of_nonePosted {s : State} {b : BayId} (h : s.tracker.NonePosted s.bays[b].queue) (c : FaultCause) :
    (s.faultBay b c).capture = Offer.captured { kind := c.offerKind, who := none, bay := some b, xlat := none } s.capture := by
  rw [State.faultBay, State.raise_capture, State.offer_capture, State.abortBay_capture_of_nonePosted h]

/-! ### The third poll timeout (R70, R130) -/

@[simp] theorem State.pollFailure_tracker (b : BayId) (s : State) : (s.pollFailure b).tracker = s.tracker := State.offer_tracker _ _

theorem State.pollFailure_queue (b : BayId) (s : State) : (s.pollFailure b).bays[b].queue = s.bays[b].queue := by
  rw [State.pollFailure, State.offer_bays, State.mapBay_same, Bay.payPoll]

theorem State.pollFailure_capture (b : BayId) (s : State) :
    (s.pollFailure b).capture = Offer.captured { kind := .pollFailed, who := none, bay := some b, xlat := none } s.capture :=
  State.offer_capture _ _

/-- A POLL that is the third exchange in a row to time out ends as a failed POLL and then faults its bay (R70, R130). -/
theorem exec_exchangeTimeout_of_third_poll {s : State} {b : BayId} {timeout : Nat}
    (hx : s.bays[b].exchange = some { op := .poll, timeout := timeout }) (hn : s.bays[b].timeouts = 2) :
    exec (.exchangeTimeout b) s
      = .next ((s.joinAsTaken (((s.mapBay b (Bay.endExchange 3)).pollFailure b).faultBay b .exchangeTimeouts)).busRest b) := by
  simp only [exec, execExchangeTimeout, hx, hn]
  rfl

/-- The failed POLL fills an invalid record, and the fault counts as one more. -/
theorem thirdPollTimeout_capture {s : State} {b : BayId} (hc : s.capture = none) (hq : s.tracker.NonePosted s.bays[b].queue) :
    (((s.mapBay b (Bay.endExchange 3)).pollFailure b).faultBay b .exchangeTimeouts).capture
      = some { offer := { kind := .pollFailed, who := none, bay := some b, xlat := none }, more := 1 } := by
  have hnone : ((s.mapBay b (Bay.endExchange 3)).pollFailure b).tracker.NonePosted ((s.mapBay b (Bay.endExchange 3)).pollFailure b).bays[b].queue := by
    rw [State.pollFailure_tracker, State.pollFailure_queue, State.mapBay_same]
    exact hq
  rw [State.faultBay_capture_of_nonePosted hnone, State.pollFailure_capture, State.mapBay_capture, hc]
  rfl

/-! ### The obligation -/

/-- Settles O41: no command but the two that make the record invalid does anything to it but offer. -/
theorem captureKeepsFirstOfferUntilCleared : Obligations.CaptureKeepsFirstOfferUntilCleared := by
  refine ⟨rfl, rfl, fun o s => ⟨s.offer_invalid o, fun c => s.offer_valid o c⟩, fun s t ht => ?clear, fun i s u c hu hc hreset hclear => ?kept,
    fun s b timeout hc hx hn hq => ?thirdPoll⟩
  case clear =>
    have hexec := State.captureClear_of_takesAction ht
    obtain ⟨-, hkind, -⟩ := ht
    refine ⟨_, hexec, s.captureClear_served t, State.captureClear_answered hkind, ?_⟩
    simp only [State.TablesKept, State.finishWith_capture, State.finishWith_tables, State.finishWith_bays, State.finishWith_events,
      State.takeRequest_tables_apertures, State.takeRequest_tables_domains, State.takeRequest_tables_grants,
      State.takeRequest_tables_freeLevels, State.takeRequest_bays, State.takeRequest_events, and_self]
  case kept =>
    obtain ⟨v, hv, hoffers⟩ := exec_offersTo hreset hclear s
    cases hu.symm.trans hv
    exact hoffers.first_kept hc
  case thirdPoll => exact ⟨_, exec_exchangeTimeout_of_third_poll hx hn, thirdPollTimeout_capture hc hq⟩

end Sys2Proof.Machine

/-! The reading of a control record (10.1), and the DEVICE_ID record. -/

namespace Sys2Proof.Machine

/-! ### CTL_READ (R166) -/

/-- A CTL_READ of a record that may be read, from an enabled domain at level 0 or 1, ends OK with the record as it stands in its data buffer. -/
theorem exec_ctlRead_of_readable {s : State} {t : Taken} (hn : s.nextTaken = some t) (hk : t.request.kind = .ctlRead)
    (he : s.tables.domains[t.request.domain].enabled = true) (hl : s.tables.domains[t.request.domain].level.val ≤ 1)
    (hr : readable t.request = true) :
    exec .ctlRead s = .next ((s.takeRequest t).finish t .ok fun y =>
      { y with buffer := (s.takeRequest t).readRecord t.request.group t.request.index }) := by
  have hlevel : (s.takeRequest t).tables.domains[t.request.domain].level ≤ 1 := hl
  refine congrArg _ ((State.serveChecked_of State.admitRead hn hk he).trans ?_)
  rw [State.admitRead, if_pos hlevel, if_pos hr]

/-- What a CTL_READ puts in its data buffer is the payload of its response. -/
theorem State.ctlRead_answered {s : State} {t : Taken} (hk : t.request.kind = .ctlRead) (record : List Word) :
    s.AnsweredWith t .ok {} 0 record ((s.takeRequest t).finish t .ok fun y => { y with buffer := record }) := by
  have hanswered : s.AnsweredWith t .ok {} 0 (if t.request.kind.returnsBuffer then record else [])
      ((s.takeRequest t).finish t .ok fun y => { y with buffer := record }) :=
    State.answered_finish rfl (fun y => { y with buffer := record }) rfl rfl
  rwa [hk] at hanswered

/-! ### The obligation -/

/-- Settles O25: the record read in every state is the constant of the part, whose fields are computed. -/
theorem deviceIdIsFixed : Obligations.DeviceIdIsFixed := by
  intro s t hn hk he hl hgroup hindex
  have hreadable : readable t.request = true := by simp [readable, groupInfo, hgroup, hindex]
  have hrecord : (s.takeRequest t).readRecord t.request.group t.request.index = [0x00010408#32, 0x20080820#32] := by
    rw [hgroup]
    rfl
  have hexec := exec_ctlRead_of_readable hn hk he hl hreadable
  rw [hrecord] at hexec
  exact ⟨_, _, _, hexec, State.ctlRead_answered hk _, by decide⟩

end Sys2Proof.Machine

/-! What a step can do, said once: the services of the admission arbiter by what becomes of the request taken, and the commands of the bays as moves that leave the uplink, the tables and the event unit's books alone but for offers and rises. -/

namespace Sys2Proof.Machine

/-! ### A step (log 3) -/

theorem step_of_nil {s : State} (h : s.pending = []) : step s = .next s := by
  simp only [step, h]

theorem step_of_cons (c : Instr) (rest : List Instr) (s : State) : step { s with pending := c :: rest } = exec c { s with pending := rest } := rfl

/-- A property that does not read the waiting commands, and that every command keeps, is kept by every step. -/
theorem step_kept {P : State → Prop} (hp : ∀ (s : State) (q : List Instr), P s → P { s with pending := q })
    (hexec : ∀ (c : Instr) (s u : State), P s → exec c s = .next u → P u) {s u : State} (hs : P s) (h : step s = .next u) : P u := by
  cases hq : s.pending with
  | nil => rw [step_of_nil hq] at h; cases h; exact hs
  | cons c rest =>
    simp only [step, hq] at h
    exact hexec c _ u (hp s rest hs) h

/-! ### The services of the arbiter (R30 to R33) -/

/-- What a CTL_WRITE puts in place, by its record group. -/
inductive RecordWrite (r : Request) (s v : State) : Prop
  | aperture (h : writeAperture r s = some v)
  | domain (h : writeDomain r s = some v)
  | grant (h : writeGrant r s = some v)
  | route (h : writeRoute r s = some v)
  | descriptor (h : writeDescriptor r s = some v)
  | limit (h : writeDescLimit r s = some v)
  | policy (h : writeBayPolicy r s = some v)

/-- The actions that a bay's engine decides on its own state. -/
def engineActions : List (Bay → Option Bay) :=
  [Bay.actPowerOn, Bay.actPowerOff, Bay.actAuxOn, Bay.actAuxOff, Bay.actRetry, Bay.actParkLight, Bay.actParkDeep, Bay.actWake]

/-- What becomes of the request taken by command `c`: it is refused, or has its effect on the part `s` that has taken it. -/
inductive Service (c : Instr) (t : Taken) (s : State) : State → Prop
  | refused (st : Status) : Service c t s (s.finishWith t st)
  | admitted (i : Fin 32) (h : s.checkData t.request = .admitted i) : Service c t s (s.admitData t i)
  | synced (hk : t.request.kind = .sync) : Service c t s ((s.mapEntry t.entry fun y => { y with state := .waiting }).examine [] [t.request.domain])
  | claimed : Service c t s (s.claimEffect t)
  | completed : Service c t s (s.completeEffect t)
  | cleared : Service c t s (s.clearServiceEffect t)
  | threshold : Service c t s (s.thresholdEffect t)
  | messaged : Service c t s (s.messageEffect t)
  | recordRead : Service c t s (s.finish t .ok fun y => { y with buffer := s.readRecord t.request.group t.request.index })
  | recordWritten (v : State) (h : RecordWrite t.request s v) : Service c t s (v.finishWith t .ok)
  | acted (f : Bay → Option Bay) (hf : f ∈ engineActions) (y : Bay) (h : f s.bays[t.request.actionBay] = some y) :
      Service c t s ((s.mapBay t.request.actionBay fun _ => y).finishWith t .ok)
  | captureCleared : Service c t s ({ s with capture := none }.finishWith t .ok)
  | reset (hc : c = .reset) (h : s.bays[t.request.actionBay].state.resettable = true) :
      Service c t s ((s.resetBay t.request.actionBay).finishWith t .ok)

theorem State.admission_service (c : Instr) (t : Taken) (s : State) : Service c t s (s.admission t) := by
  unfold State.admission
  split
  · exact .refused _
  · next i hi => exact .admitted i hi

theorem State.admitSync_service (c : Instr) {t : Taken} (hk : t.request.kind = .sync) (s : State) : Service c t s (s.admitSync t) := by
  unfold State.admitSync
  split
  · exact .synced hk
  · exact .refused _

theorem State.messageChecked_service (c : Instr) (t : Taken) (s : State) : Service c t s (s.messageChecked t) := by
  unfold State.messageChecked
  dsimp only
  split
  · exact .refused _
  · split
    · exact .messaged
    · exact .refused _

theorem State.admitRead_service (c : Instr) (t : Taken) (s : State) : Service c t s (s.admitRead t) := by
  unfold State.admitRead
  split
  · split
    · exact .recordRead
    · exact .refused _
  · exact .refused _

theorem State.admitWrite_service {apply : Request → State → Option State} (ha : ∀ (r : Request) (s v : State), apply r s = some v → RecordWrite r s v)
    (c : Instr) (t : Taken) (s : State) : Service c t s (s.admitWrite apply t) := by
  unfold State.admitWrite
  split
  · exact .refused _
  · split
    · split
      · split
        · next v hv => exact .recordWritten v (ha _ _ _ hv)
        · exact .refused _
      · exact .refused _
    · exact .refused _

/-- An action serves where what it makes of the part, answered OK, is a service. -/
theorem State.admitAction_service {act : Request → State → Option State} {c : Instr} {t : Taken} {s : State}
    (ha : ∀ v, act t.request s = some v → Service c t s (v.finishWith t .ok)) (st : Status) : Service c t s (s.admitAction act st t) := by
  unfold State.admitAction
  split
  · exact .refused _
  · split
    · split
      · next v hv => exact ha v hv
      · exact .refused _
    · exact .refused _

theorem onBay_service {f : Bay → Option Bay} (hf : f ∈ engineActions) {c : Instr} {t : Taken} {s : State} (v : State)
    (h : onBay f t.request s = some v) : Service c t s (v.finishWith t .ok) := by
  obtain ⟨y, hy, rfl⟩ := Option.map_eq_some_iff.1 h
  exact .acted f hf y hy

theorem actReset_service {t : Taken} {s : State} (v : State) (h : actReset t.request s = some v) : Service .reset t s (v.finishWith t .ok) := by
  unfold actReset at h
  split at h
  · next hr => cases h; exact .reset rfl hr
  · cases h

theorem actCaptureClear_service {c : Instr} {t : Taken} {s : State} (v : State) (h : actCaptureClear t.request s = some v) :
    Service c t s (v.finishWith t .ok) := by
  cases h
  exact .captureCleared

/-- The group codes of no writable group are 0 and those above 7 (Tables 9-5, 10-1). -/
theorem Request.otherGroup_eq (r : Request) : r.otherGroup = (r.group == 0 || decide (7 < r.group)) := by
  rw [Bool.eq_iff_iff]
  refine ⟨fun h => ?_, Request.otherGroup_of_code⟩
  refine Decidable.byContradiction fun hcode => ?_
  simp only [Bool.or_eq_true, beq_iff_eq, decide_eq_true_eq] at hcode
  have hg : r.group = 1 ∨ r.group = 2 ∨ r.group = 3 ∨ r.group = 4 ∨ r.group = 5 ∨ r.group = 6 ∨ r.group = 7 := by omega
  rcases hg with hg | hg | hg | hg | hg | hg | hg <;> simp [Request.otherGroup, hg, groupInfo] at h

/-- A service of the arbiter: it acts on the request that it names where that is the arbiter's next choice, and otherwise does nothing. -/
def State.ServesBy (s : State) (c : Instr) (want : Request → Bool) (act : Taken → State → State) : Prop :=
  exec c s = .next (s.serve want act) ∧ (∀ r, want r = commandServes c r) ∧ ∀ t, s.nextTaken = some t → commandServes c t.request = true →
    Service c t (s.takeRequest t) (act t (s.takeRequest t))

theorem State.servesBy_checked {s : State} {c : Instr} {k : ReqKind} {act : Taken → State → State}
    (hexec : exec c s = .next (s.serveChecked k act)) (hc : ∀ r, (r.kind == k) = commandServes c r)
    (ha : ∀ t v, Service c t v (act t v)) : ∃ want act, s.ServesBy c want act := by
  refine ⟨_, _, hexec, hc, fun t _ _ => ?_⟩
  split
  · exact ha t _
  · exact .refused _

/-- Every command that can name a request is a service of the arbiter. -/
theorem exec_servesBy {c : Instr} (hc : ∃ r, commandServes c r = true) (s : State) : ∃ want act, s.ServesBy c want act := by
  obtain ⟨r, hr⟩ := hc
  have hengine {f : Bay → Option Bay} (hf : f ∈ engineActions) (c : Instr) (t : Taken) : Service c t (s.takeRequest t)
      ((s.takeRequest t).admitAction (onBay f) .badState t) := State.admitAction_service (onBay_service hf) _
  cases c with
  | read | write | blockRead | blockWrite | fetchAdd => exact ⟨_, _, rfl, fun _ => rfl, fun t _ _ => State.admission_service _ t _⟩
  | sync => exact ⟨_, _, rfl, fun _ => rfl, fun t _ ht => State.admitSync_service _ (eq_of_beq ht) _⟩
  | claim => exact State.servesBy_checked rfl (fun _ => rfl) fun t v => .claimed
  | complete => exact State.servesBy_checked rfl (fun _ => rfl) fun t v => .completed
  | threshold => exact State.servesBy_checked rfl (fun _ => rfl) fun t v => .threshold
  | message => exact State.servesBy_checked rfl (fun _ => rfl) fun t v => State.messageChecked_service _ t v
  | clearService => exact State.servesBy_checked rfl (fun _ => rfl) fun t v => .cleared
  | ctlRead => exact State.servesBy_checked rfl (fun _ => rfl) fun t v => State.admitRead_service _ t v
  | ctlWriteAperture => exact ⟨_, _, rfl, fun _ => rfl, fun t _ _ => State.admitWrite_service (fun _ _ _ => .aperture) _ t _⟩
  | ctlWriteDomain => exact ⟨_, _, rfl, fun _ => rfl, fun t _ _ => State.admitWrite_service (fun _ _ _ => .domain) _ t _⟩
  | ctlWriteGrant => exact ⟨_, _, rfl, fun _ => rfl, fun t _ _ => State.admitWrite_service (fun _ _ _ => .grant) _ t _⟩
  | ctlWriteRoute => exact ⟨_, _, rfl, fun _ => rfl, fun t _ _ => State.admitWrite_service (fun _ _ _ => .route) _ t _⟩
  | ctlWriteDescriptor => exact ⟨_, _, rfl, fun _ => rfl, fun t _ _ => State.admitWrite_service (fun _ _ _ => .descriptor) _ t _⟩
  | ctlWriteDescLimit => exact ⟨_, _, rfl, fun _ => rfl, fun t _ _ => State.admitWrite_service (fun _ _ _ => .limit) _ t _⟩
  | ctlWriteBayPolicy => exact ⟨_, _, rfl, fun _ => rfl, fun t _ _ => State.admitWrite_service (fun _ _ _ => .policy) _ t _⟩
  | ctlWriteOtherGroup =>
    exact ⟨_, _, rfl, fun r => by simp only [commandServes, Request.otherGroup_eq], fun t _ _ => State.admitWrite_service (apply := fun _ _ => none) (fun _ _ _ h => nomatch h) _ t _⟩
  | powerOn | powerOff | auxOn | auxOff | retry | parkLight | parkDeep | wake =>
    exact ⟨_, _, rfl, fun _ => rfl, fun t _ _ => hengine (by simp [engineActions]) _ t⟩
  | reset => exact ⟨_, _, rfl, fun _ => rfl, fun t _ _ => State.admitAction_service actReset_service _⟩
  | captureClear => exact ⟨_, _, rfl, fun _ => rfl, fun t _ _ => State.admitAction_service actCaptureClear_service _⟩
  | bayActionUnknown => exact ⟨_, _, rfl, fun _ => rfl, fun t _ _ => State.admitAction_service (act := fun _ _ => none) (fun _ h => nomatch h) _⟩
  | _ => cases hr

/-- A command that names the arbiter's next choice serves it. -/
theorem exec_service {s : State} {t : Taken} (hn : s.nextTaken = some t) {c : Instr} (hc : commandServes c t.request = true) :
    ∃ u, exec c s = .next u ∧ Service c t (s.takeRequest t) u := by
  obtain ⟨want, act, hexec, hwant, hservice⟩ := exec_servesBy ⟨_, hc⟩ s
  rw [State.serve_of want act s t hn ((hwant _).trans hc)] at hexec
  exact ⟨_, hexec, hservice t hn hc⟩

/-- A command that names a service the arbiter does not make changes nothing (log 2). -/
theorem exec_of_not_served {c : Instr} {s : State} (hc : ∃ r, commandServes c r = true)
    (h : s.nextTaken = none ∨ ∃ t, s.nextTaken = some t ∧ commandServes c t.request = false) : exec c s = .next s := by
  obtain ⟨want, act, hexec, hwant, -⟩ := exec_servesBy hc s
  rcases h with h | ⟨t, h, ht⟩
  · rw [hexec, State.serve_none want act s h]
  · rw [hexec, State.serve_other want act s t h ((hwant _).trans ht)]

/-- What a command that can name a request does: nothing, or one service. -/
theorem exec_arbiter_cases {c : Instr} {s u : State} (hc : ∃ r, commandServes c r = true) (h : exec c s = .next u) :
    u = s ∨ ∃ t, s.nextTaken = some t ∧ commandServes c t.request = true ∧ Service c t (s.takeRequest t) u := by
  cases hn : s.nextTaken with
  | none =>
    rw [exec_of_not_served hc (.inl hn)] at h
    cases h
    exact .inl rfl
  | some t =>
    cases ht : commandServes c t.request with
    | false =>
      rw [exec_of_not_served hc (.inr ⟨t, hn, ht⟩)] at h
      cases h
      exact .inl rfl
    | true =>
      obtain ⟨v, hv, hservice⟩ := exec_service hn ht
      rw [hv] at h
      cases h
      exact .inr ⟨t, rfl, ht, hservice⟩

end Sys2Proof.Machine

/-! The commands of the bays, seen from the blocks they do not reach: a property that reads neither the tracker nor the bays, and that offers and rises keep, is kept by every one of them. -/

namespace Sys2Proof.Machine

/-! ### The three sorts of command -/

/-- The command names an event of a bay: of its bus, of its timers or of the life of its module. -/
def commandOfBay : Instr → Bool
  | .bayDecisionPoint _ | .exchangeAnswer _ _ _ | .exchangeTimeout _ | .dwellExpiry _ _ | .recoveryExpiry _ _ | .pollTimerExpiry _
  | .wakeTimerExpiry _ | .presenceContactChange _ _ _ | .debounceExpiry _ | .railGood _ _ | .railTimerExpiry _ | .holdTimerExpiry _
  | .moduleReady _ _ | .readyTimerExpiry _ | .idNoAnswer _ | .identityReadEnd _ _ => true
  | _ => false

/-- The command names an event of the device or of its link. -/
def commandOfLink : Instr → Bool
  | .powerOnReset | .linkGained | .linkLost | .packetReceived _ | .transmitChoice => true
  | _ => false

/-- A request of kind `k` whose header word 1 is `w`. -/
def Request.sample (k : ReqKind) (w : Word) : Request :=
  { kind := k, domain := 0, tag := 0, size := 0, stride := .none, word1 := w, mask := 0, aux := 0, count := 0, payload := [] }

/-- Every command is of the link, of a bay, or a service of the arbiter. -/
theorem command_sorts (c : Instr) : commandOfLink c = true ∨ commandOfBay c = true ∨ ∃ r, commandServes c r = true := by
  cases c with
  | powerOnReset | linkGained | linkLost | packetReceived | transmitChoice => exact .inl rfl
  | read => exact .inr (.inr ⟨.sample .read 0, rfl⟩)
  | write => exact .inr (.inr ⟨.sample .write 0, rfl⟩)
  | blockRead => exact .inr (.inr ⟨.sample .blockRead 0, rfl⟩)
  | blockWrite => exact .inr (.inr ⟨.sample .blockWrite 0, rfl⟩)
  | fetchAdd => exact .inr (.inr ⟨.sample .fetchAdd 0, rfl⟩)
  | sync => exact .inr (.inr ⟨.sample .sync 0, rfl⟩)
  | claim => exact .inr (.inr ⟨.sample .claim 0, rfl⟩)
  | complete => exact .inr (.inr ⟨.sample .complete 0, rfl⟩)
  | threshold => exact .inr (.inr ⟨.sample .threshold 0, rfl⟩)
  | message => exact .inr (.inr ⟨.sample .message 0, rfl⟩)
  | clearService => exact .inr (.inr ⟨.sample .clearService 0, rfl⟩)
  | ctlRead => exact .inr (.inr ⟨.sample .ctlRead 0, rfl⟩)
  | ctlWriteAperture => exact .inr (.inr ⟨.sample .ctlWrite 0x01000000, by decide⟩)
  | ctlWriteDomain => exact .inr (.inr ⟨.sample .ctlWrite 0x02000000, by decide⟩)
  | ctlWriteGrant => exact .inr (.inr ⟨.sample .ctlWrite 0x03000000, by decide⟩)
  | ctlWriteRoute => exact .inr (.inr ⟨.sample .ctlWrite 0x04000000, by decide⟩)
  | ctlWriteDescriptor => exact .inr (.inr ⟨.sample .ctlWrite 0x05000000, by decide⟩)
  | ctlWriteDescLimit => exact .inr (.inr ⟨.sample .ctlWrite 0x06000000, by decide⟩)
  | ctlWriteBayPolicy => exact .inr (.inr ⟨.sample .ctlWrite 0x07000000, by decide⟩)
  | ctlWriteOtherGroup => exact .inr (.inr ⟨.sample .ctlWrite 0, by decide⟩)
  | powerOn => exact .inr (.inr ⟨.sample .bayAction 1, by decide⟩)
  | powerOff => exact .inr (.inr ⟨.sample .bayAction 2, by decide⟩)
  | auxOn => exact .inr (.inr ⟨.sample .bayAction 3, by decide⟩)
  | auxOff => exact .inr (.inr ⟨.sample .bayAction 4, by decide⟩)
  | reset => exact .inr (.inr ⟨.sample .bayAction 5, by decide⟩)
  | retry => exact .inr (.inr ⟨.sample .bayAction 6, by decide⟩)
  | parkLight => exact .inr (.inr ⟨.sample .bayAction 7, by decide⟩)
  | parkDeep => exact .inr (.inr ⟨.sample .bayAction 8, by decide⟩)
  | wake => exact .inr (.inr ⟨.sample .bayAction 9, by decide⟩)
  | captureClear => exact .inr (.inr ⟨.sample .bayAction 10, by decide⟩)
  | bayActionUnknown => exact .inr (.inr ⟨.sample .bayAction 0, by decide⟩)
  | _ => exact .inr (.inl rfl)

/-! ### What every command of a bay keeps -/

/-- `P` reads neither the tracker nor the bays, and is kept by an offer and by a latch. -/
structure MovesKept (P : State → Prop) : Prop where
  tracker : ∀ s tr, P s → P { s with tracker := tr }
  bays : ∀ s bs, P s → P { s with bays := bs }
  offer : ∀ s o, P s → P (s.offer o)
  latch : ∀ s it, P s → P (s.latch it)

namespace MovesKept

variable {P : State → Prop}

theorem workKept (k : MovesKept P) : WorkKept P where
  tracker := k.tracker
  offer := k.offer
  latch := k.latch
  enqueue s _ _ _ h := k.bays s _ h
  dequeue s _ _ h := k.bays s _ h

theorem mapBay (k : MovesKept P) (b : BayId) (f : Bay → Bay) {s : State} (h : P s) : P (s.mapBay b f) := k.bays s _ h

theorem mapEntry (k : MovesKept P) (e : EntryId) (f : Entry → Entry) {s : State} (h : P s) : P (s.mapEntry e f) := k.tracker s _ h

theorem raise (k : MovesKept P) (b : BayId) (c : CondKind) {s : State} (h : P s) : P (s.raise b c) := k.workKept.raise b c s h

theorem endEntry (k : MovesKept P) (b : BayId) (e : EntryId) (st : Status) {s : State} (h : P s) : P (s.endEntry b e st) :=
  k.workKept.endEntry b e st s h

theorem faultBay (k : MovesKept P) (b : BayId) (c : FaultCause) {s : State} (h : P s) : P (s.faultBay b c) :=
  k.workKept.faultBay b c s (k.mapBay b _ h)

theorem removal (k : MovesKept P) (b : BayId) {s : State} (h : P s) : P (s.removal b) := k.workKept.removal b s (k.mapBay b _ h)

theorem resetBay (k : MovesKept P) (b : BayId) {s : State} (h : P s) : P (s.resetBay b) := k.workKept.resetBay b s (k.mapBay b _ h)

theorem beginEntry (k : MovesKept P) (b : BayId) (e : EntryId) {s : State} (h : P s) : P (s.beginEntry b e) := by
  unfold State.beginEntry
  dsimp only
  split
  · split
    · exact k.mapBay b _ (k.endEntry b e _ h)
    · split
      · exact k.mapBay b _ (k.endEntry b e _ h)
      · exact k.mapBay b _ (k.mapEntry e _ h)
  · exact h

theorem serveEntries (k : MovesKept P) (b : BayId) {s : State} (h : P s) : P (s.serveEntries b) := by
  have hpoll : P (s.idlePoll b) := by
    unfold State.idlePoll
    split
    · exact k.mapBay b _ h
    · exact h
  have hrunning (e : EntryId) : P (s.continueEntry b e) := by
    unfold State.continueEntry
    split
    · split
      · exact k.beginEntry b _ (k.mapEntry e _ h)
      · exact k.beginEntry b e h
    · exact k.beginEntry b e h
  unfold State.serveEntries
  split
  · exact hpoll
  · split
    · exact hrunning _
    · split
      · exact k.beginEntry b _ h
      · split
        · exact k.beginEntry b _ h
        · exact hpoll

theorem arbitrate (k : MovesKept P) (b : BayId) {s : State} (h : P s) : P (s.arbitrate b) := by
  unfold State.arbitrate
  dsimp only
  split
  · exact k.mapBay b _ (k.mapBay b _ h)
  · exact k.mapBay b _ (k.mapBay b _ h)
  · exact k.serveEntries b (k.mapBay b _ h)

theorem unitDone (k : MovesKept P) (b : BayId) (e : EntryId) (bytes : List Byte) {s : State} (h : P s) : P (s.unitDone b e bytes) := by
  unfold State.unitDone
  dsimp only
  split
  · split
    · exact k.endEntry b e _ (k.mapEntry e _ h)
    · exact k.mapEntry e _ h
  · split
    · exact k.endEntry b e _ (k.mapEntry e _ h)
    · exact k.mapEntry e _ h
  · exact k.endEntry b e _ (k.mapEntry e _ h)
  · exact k.endEntry b e _ h

theorem unitEnd (k : MovesKept P) (b : BayId) (e : EntryId) (r : Bay × UnitResult) {s : State} (h : P s) : P (s.unitEnd b e r) := by
  have hbay := k.mapBay b (fun _ => r.1) h
  unfold State.unitEnd State.unitResult
  split
  · exact hbay
  · exact k.mapEntry e _ hbay
  · exact k.unitDone b e _ hbay
  · exact k.endEntry b e _ hbay

theorem arbiterEnd (k : MovesKept P) (b : BayId) (op : ExchangeOp) {s : State} (h : P s) : P (s.arbiterEnd b op) := by
  unfold State.arbiterEnd
  split
  · exact k.mapBay b _ h
  · exact h

theorem pollFailure (k : MovesKept P) (b : BayId) {s : State} (h : P s) : P (s.pollFailure b) := k.offer _ _ (k.mapBay b _ h)

theorem pollAck (k : MovesKept P) (b : BayId) (w : StatusWord) {s : State} (h : P s) : P (s.pollAck b w) := by
  have hrises : P ((risesOf s.bays[b].lastStatus w).foldl (fun s c => s.raise b c) (s.mapBay b Bay.payPoll)) :=
    foldl_kept (fun _ c hv => k.raise b c hv) _ _ (k.mapBay b _ h)
  unfold State.pollAck
  dsimp only
  split
  · exact k.faultBay b _ (k.mapBay b _ hrises)
  · exact k.mapBay b _ hrises

theorem answered (k : MovesKept P) (b : BayId) (op : ExchangeOp) (a : Answer) {s : State} (h : P s) : P (s.answered b op a) := by
  unfold State.answered
  split
  · exact k.pollAck b _ h
  · exact k.pollFailure b h
  · split
    · split
      · exact k.unitEnd b _ _ h
      · exact k.unitEnd b _ _ h
    · exact k.arbiterEnd b _ h

theorem timedOut (k : MovesKept P) (b : BayId) (op : ExchangeOp) {s : State} (h : P s) : P (s.timedOut b op) := by
  unfold State.timedOut
  split
  · exact k.pollFailure b h
  · split
    · exact k.unitEnd b _ _ h
    · exact k.arbiterEnd b _ h

theorem contactChanged (k : MovesKept P) (b : BayId) (made : Bool) {s : State} (h : P s) : P (s.contactChanged b made) := by
  unfold State.contactChanged
  split <;> split
  · exact k.mapBay b _ h
  · exact h
  · exact h
  · exact k.mapBay b _ h
  · exact h
  · exact k.removal b h

theorem identityRead (k : MovesKept P) (b : BayId) (r : IdentityRecord) {s : State} (h : P s) : P (s.identityRead b r) := by
  unfold State.identityRead
  dsimp only
  split
  · exact k.raise b _ (k.mapBay b _ (k.mapBay b _ h))
  · exact k.faultBay b _ (k.mapBay b _ h)

/-- A command that acts where a guard lets it keeps `P` where its action does. -/
theorem of_guarded {c : Prop} [Decidable c] {s v u : State} (hs : P s) (hv : P v)
    (h : (if c then .next v else .next s : Host.Outcome State Fault Refusal) = .next u) : P u := by
  split at h
  · cases h; exact hv
  · cases h; exact hs

theorem exchangeAnswer (k : MovesKept P) (b : BayId) (late : Bool) (a : Answer) {s u : State} (hs : P s)
    (h : execExchangeAnswer b late a s = .next u) : P u := by
  unfold execExchangeAnswer at h
  split at h
  · cases h; exact k.mapBay b _ (k.answered b _ a (k.mapBay b _ hs))
  · cases h; exact hs

theorem exchangeTimeout (k : MovesKept P) (b : BayId) {s u : State} (hs : P s) (h : execExchangeTimeout b s = .next u) : P u := by
  unfold execExchangeTimeout at h
  split at h
  · next x _ =>
    have hended := k.timedOut b x.op (k.mapBay b (Bay.endExchange (s.bays[b].timeouts + 1)) hs)
    cases h
    refine k.mapBay b _ ?_
    split
    · exact k.bays _ _ (k.faultBay b _ hended)
    · exact hended
  · cases h; exact hs

theorem pollTimerExpiry (k : MovesKept P) (b : BayId) {s u : State} (hs : P s) (h : execPollTimerExpiry b s = .next u) : P u := by
  unfold execPollTimerExpiry at h
  split at h
  · cases h
    split
    · exact k.mapBay b _ (k.mapBay b _ hs)
    · exact k.raise b _ (k.mapBay b _ (k.mapBay b _ hs))
  · cases h; exact hs

theorem presenceContactChange (k : MovesKept P) (b : BayId) (c : Contact) (made : Bool) {s u : State} (hs : P s)
    (h : execPresenceContactChange b c made s = .next u) : P u := by
  unfold execPresenceContactChange at h
  split at h
  · cases h; exact hs
  · cases h; exact k.contactChanged b made (k.mapBay b _ hs)

/-- Every command of a bay keeps what its moves keep. -/
theorem exec_ofBay (k : MovesKept P) {c : Instr} (hc : commandOfBay c = true) {s u : State} (hs : P s) (h : exec c s = .next u) : P u := by
  cases c with
  | bayDecisionPoint b => exact of_guarded hs (k.mapBay b _ (k.arbitrate b hs)) h
  | exchangeAnswer b late a => exact k.exchangeAnswer b late a hs h
  | exchangeTimeout b => exact k.exchangeTimeout b hs h
  | dwellExpiry b l => cases h; exact k.mapBay b _ hs
  | recoveryExpiry b l => cases h; exact k.mapBay b _ (k.mapBay b _ hs)
  | pollTimerExpiry b => exact k.pollTimerExpiry b hs h
  | wakeTimerExpiry b => exact of_guarded hs (k.mapBay b _ (k.mapBay b _ hs)) h
  | presenceContactChange b c made => exact k.presenceContactChange b c made hs h
  | debounceExpiry b => exact of_guarded hs (k.mapBay b _ (k.raise b _ hs)) h
  | railGood b level => cases h; exact k.mapBay b _ hs
  | railTimerExpiry b => exact of_guarded hs (k.faultBay b _ hs) h
  | holdTimerExpiry b => exact of_guarded hs (k.mapBay b _ hs) h
  | moduleReady b level => cases h; exact k.mapBay b _ hs
  | readyTimerExpiry b => exact of_guarded hs (k.faultBay b _ hs) h
  | idNoAnswer slot => exact of_guarded hs (k.faultBay slot.bay _ (k.mapBay slot.bay _ hs)) h
  | identityReadEnd b bytes => exact of_guarded hs (k.identityRead b _ hs) h
  | _ => cases hc

/-! ### What a link reset and a transmission keep -/

theorem dropEntry (k : MovesKept P) (e : EntryId) {s : State} (h : P s) : P (s.dropEntry e) := by
  unfold State.dropEntry
  split
  · exact k.workKept.freeEntry e _ (k.bays s _ h)
  · exact k.workKept.freeEntry e s h

theorem linkResetEntry (k : MovesKept P) (e : EntryId) {s : State} (h : P s) : P (s.linkResetEntry e) := by
  have hresponse : P (s.dropResponse e) := k.mapEntry e _ h
  have hfree : P (s.freeEntry e) := k.tracker s _ h
  have hrunning : P (s.discardRunning e) := by
    unfold State.discardRunning
    split
    · split
      · exact k.mapEntry e _ h
      · exact k.dropEntry e h
    · exact k.dropEntry e h
  unfold State.linkResetEntry
  dsimp only
  split
  case h_1 => exact h
  case h_2 =>
    split
    · exact hresponse
    · exact hfree
  case h_3 | h_5 =>
    split
    · exact hresponse
    · exact k.dropEntry e h
  case h_4 =>
    split
    · exact hresponse
    · exact hrunning
  case h_6 | h_7 => exact hfree

theorem trackerLinkReset (k : MovesKept P) {s : State} (h : P s) : P s.trackerLinkReset :=
  k.workKept.examine _ _ _ (k.tracker _ _ (foldl_kept (fun _ e hv => k.linkResetEntry e hv) _ s h))

theorem settleAll (k : MovesKept P) {s : State} (h : P s) : P s.settleAll := foldl_kept (fun _ b hv => k.mapBay b _ hv) _ s h

theorem takeResponse (k : MovesKept P) (e : EntryId) {s : State} (h : P s) : P (s.takeResponse e) := by
  have hpopped : P { s with tracker := { s.tracker with order := s.tracker.order.tail } } := k.tracker s _ h
  unfold State.takeResponse
  dsimp only
  split
  · exact k.workKept.examine _ _ _ (k.workKept.freeEntry e _ hpopped)
  · exact k.mapEntry e _ hpopped

end MovesKept

end Sys2Proof.Machine

/-! The books of the event unit (Chapter 8): the signals, notices, in-service lists and active marks, and that every step keeps them in agreement. -/

namespace Sys2Proof.Machine

/-! ### What a claim makes of the event unit (R148 to R150) -/

theorem State.deliverable_of_highest {s : State} {d : DomainId} {it : Item} (h : s.highest d = some it) : s.deliverable d it = true :=
  ((s.highest_eq_some_iff d it).1 h).1

/-- What a claim of `d` has made of the event unit in `v`, before the domain is re-examined: its signal is cleared, and its highest deliverable item is handed over or put in service. -/
inductive State.ClaimMade (s : State) (d : DomainId) (v : State) : Prop
  | spurious (he : v.events = (s.clearSignal d).events)
  | handed (it : Item) (hit : (s.clearSignal d).deliverable d it = true) (he : v.events = (s.clearSignal d).events.setPending it false)
  | served (it : Item) (vec : Fin 256) (hit : (s.clearSignal d).deliverable d it = true)
      (he : v.events = (State.enterService d it s.events.routes[it.source].priority vec
        { s.clearSignal d with events := (s.clearSignal d).events.setPending it false }).events)

/-- A claim ends with its request's end in a state that it has made, and a re-examination. -/
theorem State.claimEffect_made (t : Taken) (s : State) :
    ∃ v fill, s.claimEffect t = (v.finish t .ok fill).reexamine t.request.domain ∧ v.tables = s.tables ∧ s.ClaimMade t.request.domain v := by
  unfold State.claimEffect
  dsimp only
  split
  · exact ⟨_, _, rfl, rfl, .spurious rfl⟩
  · next it hit =>
    have hdel := State.deliverable_of_highest hit
    unfold State.claimItem
    dsimp only
    split
    · split
      · exact ⟨_, _, rfl, rfl, .served it _ hdel rfl⟩
      · exact ⟨_, _, rfl, rfl, .handed it hdel rfl⟩
    · exact ⟨_, _, rfl, State.offer_tables _ _, .handed it hdel (State.offer_events _ _)⟩

/-! ### A property of the event unit's books -/

theorem mem_allDomains (d : DomainId) : d ∈ allDomains := by
  revert d; decide

/-- `P` reads the event unit and the domain table alone, and is kept by everything that changes them. -/
structure BooksKept (P : State → Prop) : Prop where
  congr : ∀ (s : State) {u : State}, u.events = s.events → u.tables.domains = s.tables.domains → P s → P u
  reset : P State.reset
  latch : ∀ s it, P s → P (s.latch it)
  claimed : ∀ {s v : State} {d : DomainId}, v.tables = s.tables → s.ClaimMade d v → P s → P (v.reexamine d)
  ended : ∀ (s : State) (d : DomainId) (removed left : List InService) (ds : List DomainId), s.events.delivery[d].inService = removed ++ left →
    d ∈ ds → (∀ e, s.events.Names removed e → e ∈ ds) → P s → P ((s.endServices d removed left).reexamineAll ds)
  threshold : ∀ s d n, P s → P ((s.mapDelivery d fun y => { y with threshold := n }).reexamine d)
  domains : ∀ (s : State) d x, P s → P (State.reexamine d { s with tables := { s.tables with domains := s.tables.domains.set d x } })
  sameDomain : ∀ (s : State) (d : DomainId) (x : DomainRec), x.enabled = s.tables.domains[d].enabled → P s →
    P { s with tables := { s.tables with domains := s.tables.domains.set d x } }
  routes : ∀ (s : State) (i : Fin 68) (x : Route), P s → P (State.reexamineAll (routeDomains i s.events.routes[i] x)
    { s with events := { s.events with routes := s.events.routes.set i x } })
  descriptors : ∀ (s : State) ds, P s → P { s with events := { s.events with descriptors := ds } }
  limit : ∀ (s : State) n, P s → P { s with events := { s.events with limit := n } }
  unlatched : ∀ (s : State) it, P s → P (State.reexamine (s.events.routedTo it) { s with events := s.events.setPending it false })
  noticed : ∀ s d, P s → P (s.mapDelivery d fun y => { y with notice := false })
  linkLost : ∀ s, P s → P s.eventLinkReset

namespace BooksKept

variable {P : State → Prop}

/-- The books are kept by every move of the tracker and the bays. -/
theorem movesKept (k : BooksKept P) : MovesKept P where
  tracker s _ h := k.congr s rfl rfl h
  bays s _ h := k.congr s rfl rfl h
  offer s o h := k.congr s (s.offer_events o) (by rw [s.offer_tables]) h
  latch := k.latch

theorem finish (k : BooksKept P) (t : Taken) (st : Status) (fill : Entry → Entry) {s : State} (h : P s) : P (s.finish t st fill) :=
  k.congr s (s.finish_events t st fill) (by rw [s.finish_tables]) h

theorem claimEffect (k : BooksKept P) (t : Taken) {s : State} (h : P s) : P (s.claimEffect t) := by
  obtain ⟨v, fill, heq, ht, hmade⟩ := s.claimEffect_made t
  rw [heq]
  refine k.claimed (s := s) ((v.finish_tables t _ fill).trans ht) ?_ h
  have he := v.finish_events t .ok fill
  cases hmade with
  | spurious hv => exact .spurious (he.trans hv)
  | handed it hit hv => exact .handed it hit (he.trans hv)
  | served it vec hit hv => exact .served it vec hit (he.trans hv)

/-- A request's end between the removal of in-service entries and the re-examinations changes nothing of the books. -/
theorem ended_finish (k : BooksKept P) (t : Taken) (fill : Entry → Entry) {s : State} {d : DomainId} {removed left : List InService}
    {ds : List DomainId} (hl : s.events.delivery[d].inService = removed ++ left) (hd : d ∈ ds) (hn : ∀ e, s.events.Names removed e → e ∈ ds)
    (h : P s) : P (((s.endServices d removed left).finish t .ok fill).reexamineAll ds) := by
  let w := (s.endServices d removed left).finish t .ok fill
  have hw : State.endServices d removed left { w with events := s.events, tables := s.tables } = { w with tables := s.tables } := by
    simp only [State.endServices, State.mapDelivery, w, State.finish_events]
  have htables : w.tables = s.tables := State.finish_tables _ _ _ _
  have hkept := k.ended { w with events := s.events, tables := s.tables } d removed left ds hl hd hn (k.congr s rfl rfl h)
  rw [hw, ← htables] at hkept
  exact hkept

theorem completeEffect (k : BooksKept P) (t : Taken) {s : State} (h : P s) : P (s.completeEffect t) := by
  cases hl : s.events.delivery[t.request.domain].inService with
  | nil => rw [State.completeEffect_of_nil hl]; exact k.finish t _ _ h
  | cons x rest =>
    rw [State.completeEffect_of_cons hl]
    refine k.ended_finish t _ hl List.mem_cons_self (fun e he => ?_) h
    by_cases hd : e = t.request.domain
    · rw [hd]; exact List.mem_cons_self
    · rw [EventUnit.mem_leavers_iff hd, State.names_endServices]; exact he

theorem clearServiceEffect (k : BooksKept P) (t : Taken) {s : State} (h : P s) : P (s.clearServiceEffect t) := by
  refine k.ended_finish (removed := s.events.delivery[t.request.domain].inService) (left := []) t _ (by simp) List.mem_cons_self (fun e he => ?_) h
  by_cases hd : e = t.request.domain
  · rw [hd]; exact List.mem_cons_self
  · rw [List.mem_cons, or_iff_right hd, EventUnit.mem_flatMap_leavers_iff hd]
    exact (State.names_endServices ..).2 he

theorem thresholdEffect (k : BooksKept P) (t : Taken) {s : State} (h : P s) : P (s.thresholdEffect t) := by
  let n : Fin 16 := Fin.ofNat 16 t.request.aux.toNat
  let w := (s.mapDelivery t.request.domain fun y => { y with threshold := n }).finish t .ok fun y =>
    { y with result := packFields [(s.events.delivery[t.request.domain].threshold, 0)] }
  have hw : State.mapDelivery t.request.domain (fun y => { y with threshold := n }) { w with events := s.events, tables := s.tables } =
      { w with tables := s.tables } := by
    simp only [State.mapDelivery, w, State.finish_events]
  have htables : w.tables = s.tables := State.finish_tables _ _ _ _
  have hkept := k.threshold { w with events := s.events, tables := s.tables } t.request.domain n (k.congr s rfl rfl h)
  rw [hw, ← htables] at hkept
  exact hkept

theorem messageEffect (k : BooksKept P) (t : Taken) {s : State} (h : P s) : P (s.messageEffect t) :=
  k.finish t _ _ (foldl_kept (fun v e hv => k.latch v (.msg t.request.channel e) hv) _ s h)

theorem writeBayPolicy (k : BooksKept P) {r : Request} {s v : State} (h : P s) (hv : writeBayPolicy r s = some v) : P v := by
  obtain ⟨x, -, rfl⟩ := Option.map_eq_some_iff.1 hv
  refine foldl_kept (fun u i hu => ?_) _ _ (k.congr s rfl rfl h)
  unfold State.withdraw
  dsimp only
  split
  · exact k.unlatched u _ hu
  · exact hu

theorem recordWrite (k : BooksKept P) {r : Request} {s v : State} (h : P s) (hv : RecordWrite r s v) : P v := by
  cases hv with
  | aperture hv => obtain ⟨x, -, rfl⟩ := Option.map_eq_some_iff.1 hv; exact k.congr s rfl rfl h
  | domain hv =>
    obtain ⟨x, -, rfl⟩ := Option.map_eq_some_iff.1 hv
    dsimp only
    split
    · next hx => exact k.sameDomain s _ x (eq_of_beq hx) h
    · exact k.domains s _ x h
  | grant hv => obtain ⟨x, -, rfl⟩ := Option.map_eq_some_iff.1 hv; exact k.congr s rfl rfl h
  | route hv => obtain ⟨x, -, rfl⟩ := Option.map_eq_some_iff.1 hv; exact k.routes s _ x h
  | descriptor hv => obtain ⟨x, -, rfl⟩ := Option.map_eq_some_iff.1 hv; exact k.descriptors s _ h
  | limit hv => obtain ⟨x, -, rfl⟩ := Option.map_eq_some_iff.1 hv; exact k.limit s _ h
  | policy hv => exact k.writeBayPolicy h hv

theorem service (k : BooksKept P) {c : Instr} {t : Taken} {s u : State} (h : P s) (hu : Service c t s u) : P u := by
  cases hu with
  | refused st => exact k.finish t st id h
  | admitted i hi => exact k.movesKept.workKept.admitData t i s (s.checkData_takes t.request i hi) h
  | synced _ => exact k.movesKept.workKept.examine _ _ _ (k.movesKept.mapEntry _ _ h)
  | claimed => exact k.claimEffect t h
  | completed => exact k.completeEffect t h
  | cleared => exact k.clearServiceEffect t h
  | threshold => exact k.thresholdEffect t h
  | messaged => exact k.messageEffect t h
  | recordRead => exact k.finish t _ _ h
  | recordWritten v hv => exact k.finish t _ _ (k.recordWrite h hv)
  | acted f hf y hy => exact k.finish t _ _ (k.movesKept.mapBay _ _ h)
  | captureCleared => exact k.finish t _ _ (k.congr s rfl rfl h)
  | reset hc hr => exact k.finish t _ _ (k.movesKept.resetBay _ h)

theorem linkReset (k : BooksKept P) {s : State} (h : P s) : P s.linkReset :=
  k.linkLost _ (k.movesKept.settleAll (k.movesKept.trackerLinkReset (k.congr s rfl rfl h)))

theorem takePacket (k : BooksKept P) (words : List Word) {s : State} (h : P s) : P (s.takePacket words) := by
  unfold State.takePacket
  split
  · split
    · unfold State.intakeRequest
      split
      · exact k.congr s rfl rfl h
      · exact k.congr s rfl rfl h
    · exact k.congr s rfl rfl h
  · exact k.movesKept.offer _ _ h

theorem transmit (k : BooksKept P) {s : State} (h : P s) : P s.transmit := by
  unfold State.transmit
  split
  · exact k.noticed _ _ (k.congr s rfl rfl h)
  · split
    · exact k.congr s rfl rfl h
    · split
      · exact k.movesKept.takeResponse _ (k.congr s rfl rfl h)
      · exact h

theorem exec_ofLink (k : BooksKept P) {c : Instr} (hc : commandOfLink c = true) {s u : State} (hs : P s) (h : exec c s = .next u) : P u := by
  cases c with
  | powerOnReset =>
    simp only [Machine.exec, execPowerOnReset, Host.Outcome.next.injEq] at h
    subst h
    exact k.congr State.reset rfl rfl k.reset
  | linkGained =>
    simp only [Machine.exec, execLinkGained, Host.Outcome.next.injEq] at h
    subst h
    exact k.congr s rfl rfl hs
  | linkLost =>
    simp only [Machine.exec, execLinkLost] at h
    split at h
    · obtain rfl := Host.Outcome.next.inj h
      exact k.linkReset hs
    · obtain rfl := Host.Outcome.next.inj h
      exact hs
  | packetReceived words => exact MovesKept.of_guarded hs (k.takePacket words hs) h
  | transmitChoice =>
    simp only [Machine.exec, execTransmitChoice] at h
    split at h
    · obtain rfl := Host.Outcome.next.inj h
      exact k.transmit hs
    · obtain rfl := Host.Outcome.next.inj h
      exact hs
  | _ => cases hc

/-- Every command keeps the books. -/
theorem exec (k : BooksKept P) {c : Instr} {s u : State} (hs : P s) (h : exec c s = .next u) : P u := by
  rcases command_sorts c with hc | hc | hc
  · exact k.exec_ofLink hc hs h
  · exact k.movesKept.exec_ofBay hc hs h
  · rcases exec_arbiter_cases hc h with rfl | ⟨t, -, -, hservice⟩
    · exact hs
    · exact k.service (k.congr s (u := s.takeRequest t) rfl rfl hs) hservice

end BooksKept

/-! ### Deliverable means signalled (R145, R146) -/

/-- An item deliverable after a change was deliverable before it, where the change sets no latch, clears no mark, and leaves the routes, and the delivery state and enabling of the domain. -/
theorem State.deliverable_before {s u : State} {d : DomainId} {it : Item} (h : u.deliverable d it = true)
    (hp : u.events.isPending it = true → s.events.isPending it = true) (ha : u.events.isActive it = false → s.events.isActive it = false)
    (hr : u.events.routes = s.events.routes) (hd : u.events.delivery[d] = s.events.delivery[d])
    (he : u.tables.domains[d].enabled = s.tables.domains[d].enabled) : s.deliverable d it = true := by
  have hto : u.events.routedTo it = s.events.routedTo it := by cases it <;> simp [EventUnit.routedTo, hr]
  rw [State.deliverable_iff] at h ⊢
  obtain ⟨hpend, hrouted, hmask, hpos, hthr, htop, hact, hen⟩ := h
  rw [hr] at hmask hpos hthr htop
  rw [hd] at hthr htop
  exact ⟨hp hpend, hto ▸ hrouted, hmask, hpos, hthr, htop, ha hact, he ▸ hen⟩

theorem State.Signalled.claimed {s v : State} {d : DomainId} (ht : v.tables = s.tables) (hmade : s.ClaimMade d v) (h : s.Signalled) :
    (v.reexamine d).Signalled := by
  refine State.signalled_of_reexamine d fun d' hd' it hit => ?_
  have hother : v.events.delivery[d'] = s.events.delivery[d'] := by
    cases hmade with
    | spurious he => rw [he]; exact State.mapDelivery_other hd' _ _
    | handed x hx he => rw [he, EventUnit.setPending_delivery]; exact State.mapDelivery_other hd' _ _
    | served x vec hx he =>
      rw [he, State.enterService, State.mapDelivery_other hd', EventUnit.setActive_delivery, EventUnit.setPending_delivery]
      exact State.mapDelivery_other hd' _ _
  have hroutes : v.events.routes = s.events.routes := by
    cases hmade with
    | spurious he => rw [he]; rfl
    | handed x hx he => rw [he, EventUnit.setPending_routes]; rfl
    | served x vec hx he =>
      rw [he, State.enterService, State.mapDelivery_events_routes, EventUnit.setActive_routes, EventUnit.setPending_routes]; rfl
  have hpending : v.events.isPending it = true → s.events.isPending it = true := by
    have hcleared : (s.clearSignal d).events.isPending it = s.events.isPending it := State.mapDelivery_isPending ..
    cases hmade with
    | spurious he => rw [he, hcleared]; exact id
    | handed x hx he =>
      rw [he, EventUnit.isPending_setPending, hcleared]
      split
      · nofun
      · exact id
    | served x vec hx he =>
      rw [he, State.enterService, State.mapDelivery_isPending, EventUnit.setActive_isPending, EventUnit.isPending_setPending, hcleared]
      split
      · nofun
      · exact id
  have hactive : v.events.isActive it = false → s.events.isActive it = false := by
    have hcleared : (s.clearSignal d).events.isActive it = s.events.isActive it := State.mapDelivery_isActive ..
    cases hmade with
    | spurious he => rw [he, hcleared]; exact id
    | handed x hx he => rw [he, EventUnit.setPending_isActive, hcleared]; exact id
    | served x vec hx he =>
      rw [he, State.enterService, State.mapDelivery_isActive, EventUnit.isActive_setActive, EventUnit.setPending_isActive, hcleared]
      split
      · nofun
      · exact id
  rw [hother]
  exact h d' it (State.deliverable_before hit hpending hactive hroutes hother (by rw [ht]))

theorem State.Signalled.ended {s : State} {d : DomainId} {removed left : List InService} {ds : List DomainId} (hd : d ∈ ds)
    (hn : ∀ e, s.events.Names removed e → e ∈ ds) (h : s.Signalled) : ((s.endServices d removed left).reexamineAll ds).Signalled := by
  obtain ⟨⟨hroutes, -⟩, hdelivery, hlatches⟩ := s.events.unmarkAll_kept d removed
  refine State.signalled_of_reexamineAll ds fun d' hd' it hit => ?_
  have hne : d' ≠ d := fun heq => hd' (heq ▸ hd)
  have hother : (s.endServices d removed left).events.delivery[d'] = s.events.delivery[d'] := by
    rw [State.endServices, State.mapDelivery_other hne, hdelivery]
  have hroutes' : (s.endServices d removed left).events.routes = s.events.routes := hroutes
  rw [hother]
  refine h d' it (State.deliverable_before hit ?_ ?_ hroutes' hother rfl)
  · rw [State.endServices, State.mapDelivery_isPending, hlatches]; exact id
  · intro hact
    rw [State.endServices, State.mapDelivery_isActive, EventUnit.isActive_unmarkAll, Bool.and_eq_false_iff] at hact
    refine hact.resolve_right fun hall => ?_
    obtain ⟨x, hx, heq⟩ := List.all_eq_false.1 hall
    have hitem : itemOf d x.source = it := by simpa using heq
    obtain ⟨-, hrouted, -⟩ := (State.deliverable_iff _ _ _).1 hit
    have hto : s.events.routedTo (itemOf d x.source) = d' := by
      rw [hitem, ← hrouted]
      cases it <;> simp [EventUnit.routedTo, hroutes']
    rw [EventUnit.routedTo_itemOf] at hto
    split at hto
    · next hbay => exact hd' (hn d' ⟨x, hx, hbay, hto⟩)
    · exact hne hto.symm

theorem State.signalled_booksKept : BooksKept State.Signalled where
  congr s {u} he ht h d it hit := by
    rw [he]
    exact h d it (State.deliverable_before hit (by rw [he]; exact id) (by rw [he]; exact id) (by rw [he]) (by rw [he]) (by rw [ht]))
  reset d it hit := by
    obtain ⟨hpend, -⟩ := (State.deliverable_iff _ _ _).1 hit
    cases it <;> simp [EventUnit.isPending, State.reset, EventUnit.initial] at hpend
  latch _ it h := h.latch it
  claimed ht hmade h := h.claimed ht hmade
  ended _ _ _ _ _ _ hd hn h := h.ended hd hn
  threshold s d n h := State.signalled_of_reexamine d fun d' hd' it hit => by
    have hother := State.mapDelivery_other hd' (fun y => { y with threshold := n }) s
    rw [hother]
    exact h d' it (State.deliverable_before hit (by simp) (by simp) rfl hother rfl)
  domains s d x h := State.signalled_of_reexamine d fun d' hd' it hit =>
    h d' it (State.deliverable_before hit id id rfl rfl (by simp [Vector.getElem_set_ne, Fin.val_ne_of_ne (Ne.symm hd')]))
  sameDomain s d x hx h d' it hit := by
    refine h d' it (State.deliverable_before hit id id rfl rfl ?_)
    by_cases hd' : d' = d
    · rw [hd']; simp [hx]
    · simp [Vector.getElem_set_ne, Fin.val_ne_of_ne (Ne.symm hd')]
  routes s i x h := State.signalled_of_reexamineAll _ fun d hd it hit => by
    have hroute : it.source ≠ i := by
      rintro rfl
      unfold routeDomains at hd
      obtain ⟨-, hrouted, -⟩ := (State.deliverable_iff _ _ _).1 hit
      cases it with
      | bay n =>
        rw [if_pos (show (Item.bay n).source.val < 64 from n.isLt)] at hd
        refine hd (List.mem_cons_of_mem _ (List.mem_singleton.2 ?_))
        rw [← hrouted]
        simp [EventUnit.routedTo]
      | msg c e =>
        rw [if_neg (show ¬ (Item.msg c e).source.val < 64 by simp [Item.source])] at hd
        exact hd (mem_allDomains d)
    have hsame : (s.events.routes.set i x)[it.source] = s.events.routes[it.source] := by
      simp [Vector.getElem_set_ne, Fin.val_ne_of_ne (Ne.symm hroute)]
    refine h d it ?_
    rw [State.deliverable_iff] at hit ⊢
    have hto : EventUnit.routedTo { s.events with routes := s.events.routes.set i x } it = s.events.routedTo it := by
      cases it with
      | bay n => simp only [EventUnit.routedTo, hsame]
      | msg c e => rfl
    obtain ⟨hpend, hrouted, hrest⟩ := hit
    simp only [hsame] at hrest
    exact ⟨by cases it <;> exact hpend, hto ▸ hrouted, by cases it <;> exact hrest⟩
  descriptors s ds h d it hit := h d it (State.deliverable_before (s := s) hit (by cases it <;> exact id) (by cases it <;> exact id) rfl rfl rfl)
  limit s n h d it hit := h d it (State.deliverable_before (s := s) hit (by cases it <;> exact id) (by cases it <;> exact id) rfl rfl rfl)
  unlatched s it h := State.Signalled.reexamine (fun d x hx => by
    have hdel : s.deliverable d x = true := State.deliverable_before hx (by
      rw [EventUnit.isPending_setPending]
      split
      · nofun
      · exact id) (by rw [EventUnit.setPending_isActive]; exact id) (by simp) (by simp) rfl
    simpa using h d x hdel) _
  noticed s d h d' it hit := by
    have hsame (e : DomainId) : (s.mapDelivery d fun y => { y with notice := false }).events.delivery[e].signal = s.events.delivery[e].signal := by
      rw [State.mapDelivery_get]
      split
      · next he => rw [he]
      · rfl
    rw [hsame]
    refine h d' it ?_
    rw [← hit]
    refine State.deliverable_congr _ _ _ _ ?_ ?_ ?_ ?_ ?_ ?_
    · simp
    · simp
    · rw [State.mapDelivery_get]; split
      · next he => rw [he]
      · rfl
    · rw [State.mapDelivery_get]; split
      · next he => rw [he]
      · rfl
    · simp
    · simp
  linkLost s _ := State.signalled_of_reexamineAll _ fun d hd => absurd (mem_allDomains d) hd

end Sys2Proof.Machine

/-! The four books of the event unit (Chapter 8) are kept by every step: a notice waits only for a signalled domain, the in-service lists are nested, and the active marks are the lists. -/

namespace Sys2Proof.Machine

/-! ### A notice waits only for a signalled domain (R146) -/

theorem EventUnit.NoticesSignalled.set {u v : EventUnit} {d : DomainId} {y : Delivery} (hv : v.delivery = u.delivery.set d y)
    (hy : y.notice = true → y.signal = true) (h : u.NoticesSignalled) : v.NoticesSignalled := by
  intro d' hd'
  rw [hv] at hd' ⊢
  by_cases hd : d' = d
  · subst hd
    simpa using hy (by simpa using hd')
  · simp only [Fin.getElem_fin, Vector.getElem_set_ne d.isLt d'.isLt (Fin.val_ne_of_ne (Ne.symm hd))] at hd' ⊢
    exact h d' hd'

theorem EventUnit.NoticesSignalled.reexamine {s : State} (d : DomainId) (h : s.events.NoticesSignalled) : (s.reexamine d).events.NoticesSignalled := by
  unfold State.reexamine
  split
  · exact h.set rfl fun _ => rfl
  · exact h

theorem EventUnit.NoticesSignalled.reexamineAll {s : State} (ds : List DomainId) (h : s.events.NoticesSignalled) :
    (s.reexamineAll ds).events.NoticesSignalled :=
  foldl_kept (P := fun s : State => s.events.NoticesSignalled) (fun _ d hv => hv.reexamine d) ds s h

theorem EventUnit.NoticesSignalled.congr {u v : EventUnit} (hv : v.delivery = u.delivery) (h : u.NoticesSignalled) : v.NoticesSignalled := by
  unfold EventUnit.NoticesSignalled
  rw [hv]
  exact h

theorem EventUnit.NoticesSignalled.mapDelivery {s : State} (d : DomainId) (f : Delivery → Delivery)
    (hf : ∀ y, (y.notice = true → y.signal = true) → (f y).notice = true → (f y).signal = true) (h : s.events.NoticesSignalled) :
    (s.mapDelivery d f).events.NoticesSignalled :=
  h.set rfl (hf _ (h d))

theorem EventUnit.NoticesSignalled.claimed {s v : State} {d : DomainId} (hmade : s.ClaimMade d v) (h : s.events.NoticesSignalled) :
    v.events.NoticesSignalled := by
  have hcleared : (s.clearSignal d).events.NoticesSignalled := h.set rfl nofun
  cases hmade with
  | spurious he => exact he ▸ hcleared
  | handed it hit he => exact he ▸ hcleared.congr (EventUnit.setPending_delivery _ _ _)
  | served it vec hit he =>
    rw [he]
    refine NoticesSignalled.mapDelivery d _ (fun _ hy => hy) (hcleared.congr ?_)
    simp only [EventUnit.setActive_delivery, EventUnit.setPending_delivery]

theorem EventUnit.noticesSignalled_booksKept : BooksKept fun s => s.events.NoticesSignalled where
  congr s u he _ h := by rw [he]; exact h
  reset d hd := by simp [State.reset, EventUnit.initial, Delivery.initial] at hd
  latch s it h := EventUnit.NoticesSignalled.reexamine _ (h.congr (EventUnit.setPending_delivery _ _ _))
  claimed _ hmade h := EventUnit.NoticesSignalled.reexamine _ (h.claimed hmade)
  ended s d removed left ds _ _ _ h := by
    obtain ⟨-, hdelivery, -⟩ := s.events.unmarkAll_kept d removed
    exact EventUnit.NoticesSignalled.reexamineAll _ (EventUnit.NoticesSignalled.mapDelivery d _ (fun _ hy => hy) (h.congr hdelivery))
  threshold s d n h := EventUnit.NoticesSignalled.reexamine _ (h.set (d := d) rfl (h d))
  domains s d x h := EventUnit.NoticesSignalled.reexamine _ h
  sameDomain s d x _ h := h
  routes s i x h := EventUnit.NoticesSignalled.reexamineAll _ (h.congr rfl)
  descriptors s ds h := h.congr rfl
  limit s n h := h.congr rfl
  unlatched s it h := EventUnit.NoticesSignalled.reexamine _ (h.congr (EventUnit.setPending_delivery _ _ _))
  noticed s d h := h.set (d := d) rfl nofun
  linkLost s h := EventUnit.NoticesSignalled.reexamineAll _ fun d hd => by simp [tabulate] at hd

/-! ### In-service lists and active marks (R143) -/

/-- The in-service lists and the active marks are the same. -/
def EventUnit.SameService (u v : EventUnit) : Prop :=
  (∀ d : DomainId, v.delivery[d].inService = u.delivery[d].inService) ∧ ∀ it, v.isActive it = u.isActive it

/-- `P` reads the in-service lists and active marks alone, and is kept where an item enters service and where entries leave a list. -/
structure ServiceKept (P : EventUnit → Prop) : Prop where
  congr : ∀ {u v : EventUnit}, u.SameService v → P u → P v
  reset : P EventUnit.initial
  entered : ∀ (s : State) (d : DomainId) (it : Item) (vec : Fin 256), s.deliverable d it = true → P s.events →
    P (s.enterService d it s.events.routes[it.source].priority vec).events
  ended : ∀ (s : State) (d : DomainId) (removed left : List InService), s.events.delivery[d].inService = removed ++ left → P s.events →
    P (s.endServices d removed left).events

theorem EventUnit.sameService_of_delivery {u v : EventUnit} (hd : v.delivery = u.delivery) (hb : v.bayActive = u.bayActive)
    (hm : v.msgActive = u.msgActive) : u.SameService v :=
  ⟨fun d => by rw [hd], fun it => by cases it <;> simp [EventUnit.isActive, hb, hm]⟩

theorem State.sameService_mapDelivery (s : State) (d : DomainId) (f : Delivery → Delivery) (hf : ∀ y, (f y).inService = y.inService) :
    s.events.SameService (s.mapDelivery d f).events := by
  refine ⟨fun d' => ?_, fun it => State.mapDelivery_isActive d f it s⟩
  rw [State.mapDelivery_get]
  split
  · next h => rw [hf, h]
  · rfl

theorem State.sameService_reexamine (s : State) (d : DomainId) : s.events.SameService (s.reexamine d).events := by
  unfold State.reexamine
  split
  · exact s.sameService_mapDelivery d _ fun _ => rfl
  · exact ⟨fun _ => rfl, fun _ => rfl⟩

theorem State.sameService_reexamineAll (s : State) (ds : List DomainId) : s.events.SameService (s.reexamineAll ds).events :=
  ⟨fun d => State.reexamineAll_inService ds d s, fun it => State.reexamineAll_isActive ds it s⟩

theorem EventUnit.sameService_setPending (u : EventUnit) (it : Item) (v : Bool) : u.SameService (u.setPending it v) :=
  EventUnit.sameService_of_delivery (by simp) (by simp) (by simp)

namespace ServiceKept

variable {P : EventUnit → Prop}

theorem reexamine (k : ServiceKept P) {s : State} (d : DomainId) (h : P s.events) : P (s.reexamine d).events :=
  k.congr (s.sameService_reexamine d) h

theorem reexamineAll (k : ServiceKept P) {s : State} (ds : List DomainId) (h : P s.events) : P (s.reexamineAll ds).events :=
  k.congr (s.sameService_reexamineAll ds) h

theorem claimed (k : ServiceKept P) {s v : State} {d : DomainId} (hmade : s.ClaimMade d v) (h : P s.events) : P v.events := by
  have hcleared : P (s.clearSignal d).events := k.congr (s.sameService_mapDelivery d _ fun _ => rfl) h
  cases hmade with
  | spurious he => exact he ▸ hcleared
  | handed it hit he => exact he ▸ k.congr (EventUnit.sameService_setPending _ _ _) hcleared
  | served it vec hit he =>
    have hentered := k.entered (s.clearSignal d) d it vec hit hcleared
    rw [he]
    refine k.congr ⟨fun e => ?_, fun o => ?_⟩ hentered
    · simp only [State.enterService, State.mapDelivery_delivery, EventUnit.setActive_delivery, EventUnit.setPending_delivery]
      rfl
    · simp only [State.enterService, State.mapDelivery_isActive, EventUnit.isActive_setActive, EventUnit.setPending_isActive]

theorem booksKept (k : ServiceKept P) : BooksKept fun s => P s.events where
  congr s u he _ h := by rw [he]; exact h
  reset := k.reset
  latch s it h := k.reexamine _ (k.congr (EventUnit.sameService_setPending _ _ _) h)
  claimed _ hmade h := k.reexamine _ (k.claimed hmade h)
  ended s d removed left ds hl _ _ h := k.reexamineAll ds (k.ended s d removed left hl h)
  threshold s d n h := k.reexamine d (k.congr (s.sameService_mapDelivery d _ fun _ => rfl) h)
  domains s d x h := k.reexamine (s := { s with tables := { s.tables with domains := s.tables.domains.set d x } }) d h
  sameDomain s d x _ h := h
  routes s i x h := k.reexamineAll _ (k.congr (EventUnit.sameService_of_delivery (u := s.events) rfl rfl rfl) h)
  descriptors s ds h := k.congr (EventUnit.sameService_of_delivery (u := s.events) rfl rfl rfl) h
  limit s n h := k.congr (EventUnit.sameService_of_delivery (u := s.events) rfl rfl rfl) h
  unlatched s it h := k.reexamine _ (k.congr (EventUnit.sameService_setPending _ _ _) h)
  noticed s d h := k.congr (s.sameService_mapDelivery d _ fun _ => rfl) h
  linkLost s h := k.reexamineAll _ (k.congr (u := s.events) ⟨fun d => by simp [tabulate], fun it => by cases it <;> rfl⟩ h)

end ServiceKept

theorem State.enterService_inService (s : State) (d d' : DomainId) (it : Item) (p : Fin 16) (vec : Fin 256) :
    (s.enterService d it p vec).events.delivery[d'].inService =
      if d' = d then { source := it.source, priority := p, vector := vec } :: s.events.delivery[d].inService
      else s.events.delivery[d'].inService := by
  rw [State.enterService, State.mapDelivery_get]
  split <;> simp only [EventUnit.setActive_delivery]

theorem State.endServices_inService (s : State) (d d' : DomainId) (removed left : List InService) :
    (s.endServices d removed left).events.delivery[d'].inService = if d' = d then left else s.events.delivery[d'].inService := by
  obtain ⟨-, hdelivery, -⟩ := s.events.unmarkAll_kept d removed
  rw [State.endServices, State.mapDelivery_get]
  split
  · rfl
  · rw [hdelivery]

/-- An item above the top of a nested list is above all of it (R143, R144). -/
theorem exceedsTop_all {p : Fin 16} {l : List InService} (h : exceedsTop p l = true)
    (hl : l.Pairwise fun newer older => older.priority < newer.priority) : ∀ x ∈ l, x.priority < p := by
  cases l with
  | nil => nofun
  | cons y ys =>
    have hy : y.priority < p := by simpa [exceedsTop] using h
    obtain ⟨hbelow, -⟩ := List.pairwise_cons.1 hl
    intro x hx
    rcases List.mem_cons.1 hx with rfl | hx
    · exact hy
    · exact Fin.lt_trans (hbelow x hx) hy

theorem EventUnit.nested_serviceKept : ServiceKept EventUnit.Nested where
  congr {u v} h hu d := by
    rw [h.1 d]
    exact hu d
  reset d := by simp [EventUnit.initial, Delivery.initial]
  entered s d it vec hit h d' := by
    rw [State.enterService_inService]
    split
    · obtain ⟨-, -, -, hpos, -, htop, -⟩ := (s.deliverable_iff d it).1 hit
      obtain ⟨hdecreasing, hpositive⟩ := h d
      exact ⟨List.pairwise_cons.2 ⟨exceedsTop_all htop hdecreasing, hdecreasing⟩, List.forall_mem_cons.2 ⟨hpos, hpositive⟩⟩
    · exact h d'
  ended s d removed left hl h d' := by
    rw [State.endServices_inService]
    split
    · obtain ⟨hdecreasing, hpositive⟩ := h d
      rw [hl] at hdecreasing hpositive
      exact ⟨(List.pairwise_append.1 hdecreasing).2.1, fun x hx => hpositive x (List.mem_append_right _ hx)⟩
    · exact h d'

/-- An item routed to `d` is the item of its source on the list of `d`. -/
theorem itemOf_source {u : EventUnit} {d : DomainId} {it : Item} (h : u.routedTo it = d) : itemOf d it.source = it := by
  cases it with
  | bay n => simp [itemOf, Item.source]
  | msg c e =>
    have he : e = d := h
    simp [itemOf, Item.source, he]

theorem itemOf_injective (d : DomainId) {m n : Fin 68} (h : itemOf d m = itemOf d n) : m = n := by
  unfold itemOf at h
  split at h <;> split at h <;> simp at h <;> omega

theorem State.serves_enterService {s : State} {d d' : DomainId} {it o : Item} {p : Fin 16} {vec : Fin 256} (hit : itemOf d it.source = it) :
    (s.enterService d it p vec).events.serves d' o ↔ s.events.serves d' o ∨ d' = d ∧ o = it := by
  simp only [EventUnit.serves, State.enterService_inService]
  split
  · next h =>
    subst h
    simp only [List.mem_cons, exists_eq_or_imp, hit, true_and]
    rw [or_comm, eq_comm]
  · next h => simp only [h, false_and, or_false]

theorem State.serves_endServices {s : State} {d d' : DomainId} {removed left : List InService} {o : Item}
    (hl : s.events.delivery[d].inService = removed ++ left) (h : (s.endServices d removed left).events.serves d' o) : s.events.serves d' o := by
  obtain ⟨x, hx, ho⟩ := h
  rw [State.endServices_inService] at hx
  split at hx
  · next hd =>
    subst hd
    exact ⟨x, by rw [hl]; exact List.mem_append_right _ hx, ho⟩
  · exact ⟨x, hx, ho⟩

/-- An item enters service marked, and was in no list before (R143, R150). -/
theorem EventUnit.Marked.entered {s : State} {d : DomainId} {it : Item} {p : Fin 16} {vec : Fin 256} (hitem : itemOf d it.source = it)
    (hidle : s.events.isActive it = false) (h : s.events.Marked) : (s.enterService d it p vec).events.Marked := by
  obtain ⟨hmarks, hone, hnodup⟩ := h
  have hnone (e : DomainId) : ¬ s.events.serves e it := fun he => by
    rw [(hmarks it).2 ⟨e, he⟩] at hidle
    cases hidle
  refine ⟨fun o => ?marks, fun d' e o hd' he => ?once, fun d' => ?nodup⟩
  case marks =>
    simp only [State.serves_enterService hitem, exists_or]
    rw [State.enterService, State.mapDelivery_isActive, EventUnit.isActive_setActive]
    split
    · next ho => simp [ho]
    · next ho => simp [ho, hmarks]
  case once =>
    rw [State.serves_enterService hitem] at hd' he
    rcases hd' with hd' | ⟨rfl, rfl⟩ <;> rcases he with he | ⟨rfl, ho⟩
    · exact hone _ _ o hd' he
    · exact absurd (ho ▸ hd') (hnone d')
    · exact absurd he (hnone e)
    · rfl
  case nodup =>
    rw [State.enterService_inService]
    split
    · rw [List.map_cons, List.nodup_cons]
      refine ⟨fun hmem => ?_, hnodup d⟩
      obtain ⟨x, hx, heq⟩ := List.mem_map.1 hmem
      exact hnone d ⟨x, hx, by rw [heq, hitem]⟩
    · exact hnodup d'

/-- The marks of the entries that leave a list are cleared, and the items they mark stand in no other list (R151, R152). -/
theorem EventUnit.Marked.ended {s : State} {d : DomainId} {removed left : List InService}
    (hl : s.events.delivery[d].inService = removed ++ left) (h : s.events.Marked) : (s.endServices d removed left).events.Marked := by
  obtain ⟨hmarks, hone, hnodup⟩ := h
  have hlist := hnodup d
  rw [hl, List.map_append, List.nodup_append] at hlist
  obtain ⟨-, hleft, hapart⟩ := hlist
  refine ⟨fun o => ⟨fun ho => ?served, fun ⟨d', hserves⟩ => ?marked⟩,
    fun d' e o hd' he => hone d' e o (State.serves_endServices hl hd') (State.serves_endServices hl he), fun d' => ?nodup⟩
  case served =>
    rw [State.endServices, State.mapDelivery_isActive, EventUnit.isActive_unmarkAll, Bool.and_eq_true, List.all_eq_true] at ho
    obtain ⟨hactive, hnot⟩ := ho
    obtain ⟨d', x, hx, hxo⟩ := (hmarks o).1 hactive
    refine ⟨d', x, ?_, hxo⟩
    rw [State.endServices_inService]
    split
    · next hd =>
      subst hd
      rw [hl, List.mem_append] at hx
      exact hx.resolve_left fun hr => by simpa [hxo] using hnot x hr
    · exact hx
  case marked =>
    have hbefore := State.serves_endServices hl hserves
    rw [State.endServices, State.mapDelivery_isActive, EventUnit.isActive_unmarkAll, (hmarks o).2 ⟨d', hbefore⟩, Bool.true_and, List.all_eq_true]
    intro y hy
    rw [bne_iff_ne]
    intro hyo
    have hd : d' = d := hone d' d o hbefore ⟨y, by rw [hl]; exact List.mem_append_left _ hy, hyo⟩
    subst hd
    obtain ⟨x, hx, hxo⟩ := hserves
    rw [State.endServices_inService, if_pos rfl] at hx
    exact hapart _ (List.mem_map_of_mem hy) _ (List.mem_map_of_mem hx) (itemOf_injective d' (hyo.trans hxo.symm))
  case nodup =>
    rw [State.endServices_inService]
    split
    · exact hleft
    · exact hnodup d'

theorem EventUnit.marked_serviceKept : ServiceKept EventUnit.Marked where
  congr {u v} h hu := by
    obtain ⟨hlists, hactive⟩ := h
    simp only [EventUnit.Marked, EventUnit.serves, hlists, hactive]
    exact hu
  reset := by
    refine ⟨fun it => ?_, fun d e it hd => ?_, fun d => ?_⟩
    · cases it <;> simp [EventUnit.isActive, EventUnit.serves, EventUnit.initial, Delivery.initial]
    · simp [EventUnit.serves, EventUnit.initial, Delivery.initial] at hd
    · simp [EventUnit.initial, Delivery.initial]
  entered s d it vec hit h := by
    obtain ⟨-, hrouted, -, -, -, -, hidle, -⟩ := (s.deliverable_iff d it).1 hit
    exact h.entered (itemOf_source hrouted) hidle
  ended s d removed left hl h := h.ended hl

/-! ### The obligation -/

/-- Settles O60: what changes the event unit beside latches and re-examinations is a claim, the end of services, a threshold, a notice taken, or a write of a domain or route record; each keeps each of the four books. -/
theorem eventUnitKeepsItsBooks : Obligations.EventUnitKeepsItsBooks := by
  intro s u h
  have hkept {P : State → Prop} (k : BooksKept P) (hs : P s) : P u :=
    step_kept (fun v _ hv => k.congr v rfl rfl hv) (fun _ _ _ hv he => k.exec hv he) hs h
  exact ⟨hkept State.signalled_booksKept, hkept EventUnit.noticesSignalled_booksKept, hkept EventUnit.nested_serviceKept.booksKept,
    hkept EventUnit.marked_serviceKept.booksKept⟩

end Sys2Proof.Machine

/-! The machine's step, the power-on reset and the values it leaves: what every block holds after it, and that the invariants hold there. -/

namespace Sys2Proof.Machine

/-! ### A step -/

/-- Settles O1: the two branches of `step`. -/
theorem stepRunsFrontCommand : Obligations.StepRunsFrontCommand := ⟨step_of_cons, fun _ => step_of_nil⟩

/-! ### The part after a power-on reset -/

theorem State.reset_bays_get (b : BayId) : State.reset.bays[b] = Bay.initial := Vector.getElem_replicate b.isLt

theorem State.reset_entries_get (e : EntryId) : State.reset.tracker.entries[e] = Entry.blank := Vector.getElem_replicate e.isLt

theorem State.reset_delivery_get (d : DomainId) : State.reset.events.delivery[d] = Delivery.initial := Vector.getElem_replicate d.isLt

theorem State.reset_isPending (it : Item) : State.reset.events.isPending it = false := by
  cases it <;> exact Vector.getElem_replicate _

theorem State.reset_isActive (it : Item) : State.reset.events.isActive it = false := by
  cases it <;> exact Vector.getElem_replicate _

theorem initialDomains_get (d : DomainId) : initialDomains[d] =
    if d = 0 then { enabled := true, level := 0, spurious := 255 } else { enabled := false, level := 3, spurious := 255 } := by
  revert d; decide

/-- Settles O2: each block holds its power-on record at every index. -/
theorem resetHoldsPowerOnValues : Obligations.ResetHoldsPowerOnValues := by
  refine ⟨⟨rfl, fun d => Vector.getElem_replicate d.isLt, rfl⟩, fun i => ?apertures, initialDomains_get, fun b => Vector.getElem_replicate b.isLt, fun g k => ?grants, rfl,
    fun e => by rw [State.reset_entries_get]; rfl, rfl, rfl, rfl, fun d => Vector.getElem_replicate d.isLt, fun b => ?bays,
    fun i => Vector.getElem_replicate i.isLt, fun v => Vector.getElem_replicate v.isLt, rfl, fun it => ⟨State.reset_isPending it, State.reset_isActive it⟩,
    State.reset_delivery_get, rfl⟩
  case apertures =>
    rw [show State.reset.tables.apertures[i] = Aperture.cleared from Vector.getElem_replicate i.isLt]
    decide
  case grants =>
    rw [show State.reset.tables.grants[g] = Vector.replicate 8 0 from Vector.getElem_replicate g.isLt]
    exact Vector.getElem_replicate k.isLt
  case bays =>
    have hlane (l : LaneId) : Bay.initial.lanes[l] = Lane.shut := Vector.getElem_replicate l.isLt
    rw [State.reset_bays_get]
    exact ⟨rfl, rfl, rfl, rfl, rfl, rfl, rfl, rfl, rfl, rfl, rfl, rfl, rfl, rfl, rfl, rfl, rfl, rfl, fun l => by rw [hlane]; exact ⟨rfl, rfl⟩⟩

/-- Settles O3: each bay is put through `Bay.powerOn`, whose contacts decide between EMPTY and SEATING. -/
theorem powerOnResetRestoresPowerOnValues : Obligations.PowerOnResetRestoresPowerOnValues := by
  intro s
  refine ⟨_, rfl, rfl, rfl, rfl, rfl, rfl, rfl, fun b => ?_⟩
  rw [State.reset_bays_get]
  refine (tabulate_get 8 (fun b => s.bays[b].powerOn) b).trans ?_
  unfold Bay.powerOn
  dsimp only
  split <;> simp [*, Bay.enterSeating, Bay.enter, Bay.initial, BayState.powered, BayState.inReset, BayState.inService, BayState.arbitrates, BayState.hasDepth,
    Config.debounceTime]

/-! ### The invariants after a power-on reset -/

theorem Lane.sound_shut : Lane.shut.Sound := ⟨fun _ => ⟨rfl, rfl, rfl, rfl⟩, fun _ => rfl, fun _ => rfl⟩

theorem Bay.sound_initial : Bay.initial.Sound := by
  refine ⟨⟨rfl, rfl, rfl⟩, ⟨rfl, rfl, rfl, rfl, ?_, nofun, nofun, nofun⟩, ⟨Nat.zero_le _, fun _ => ⟨rfl, rfl⟩, by decide, nofun, nofun, nofun, nofun, nofun, nofun⟩,
    ⟨nofun, nofun⟩, fun l => ?_⟩
  · simp [Bay.initial]
  · rw [show Bay.initial.lanes[l] = Lane.shut from Vector.getElem_replicate l.isLt]
    exact Lane.sound_shut

theorem State.reset_baysSound : State.reset.BaysSound := fun b => by
  rw [State.reset_bays_get]
  exact Bay.sound_initial

theorem State.reset_workSound : State.reset.WorkSound := by
  refine ⟨⟨List.nodup_nil, nofun, nofun, nofun, nofun, nofun⟩, ⟨List.nodup_nil, fun e => ?_⟩, fun b => ?_, nofun⟩
  · exact ⟨nofun, fun h => nomatch h.1⟩
  · rw [State.reset_bays_get]
    exact ⟨List.nodup_nil, nofun, nofun⟩

theorem State.reset_uplinkBounded : State.reset.uplink.Bounded := by
  refine ⟨fun d => ?_, Nat.zero_le _⟩
  rw [show State.reset.uplink.intake[d] = [] from Vector.getElem_replicate d.isLt]
  exact ⟨Nat.zero_le _, nofun⟩

theorem State.reset_aperturesSound : State.reset.tables.AperturesSound := fun i h => by
  rw [show State.reset.tables.apertures[i] = Aperture.cleared from Vector.getElem_replicate i.isLt] at h
  cases h

/-- Settles O55: an empty tracker, empty bays and no latch set meet every invariant. -/
theorem invariantsHoldAtReset : Obligations.InvariantsHoldAtReset :=
  ⟨State.reset_uplinkBounded, State.reset_aperturesSound, ⟨State.reset_workSound.1, nofun⟩, fun _ => ⟨nofun, nofun⟩, State.reset_workSound, State.reset_baysSound,
    State.signalled_booksKept.reset, EventUnit.noticesSignalled_booksKept.reset, EventUnit.nested_serviceKept.reset, EventUnit.marked_serviceKept.reset⟩

/-! ### The uplink and the apertures stay bounded -/

theorem State.eventLinkReset_tables (s : State) : s.eventLinkReset.tables = s.tables := by
  unfold State.eventLinkReset
  rw [State.reexamineAll_tables]

theorem State.eventLinkReset_uplink (s : State) : s.eventLinkReset.uplink = s.uplink := by
  unfold State.eventLinkReset
  rw [State.reexamineAll_uplink]

/-- What the moves of the tracker and the bays keep, and the event unit's part of a link reset too, a link reset keeps of the part whose receiver it has reset. -/
theorem MovesKept.linkReset {P : State → Prop} (k : MovesKept P) (he : ∀ s, P s → P s.eventLinkReset) {s : State}
    (h : P { s with uplink := s.uplink.lost, tables := { s.tables with lastServed := 7 } }) : P s.linkReset :=
  he _ (k.settleAll (k.trackerLinkReset h))

theorem tables_movesKept (P : AdmissionUnit → Prop) : MovesKept fun s => P s.tables where
  tracker _ _ h := h
  bays _ _ h := h
  offer s o h := by rw [s.offer_tables]; exact h
  latch s it h := by rw [s.latch_tables]; exact h

theorem State.completeEffect_tables (t : Taken) (s : State) : (s.completeEffect t).tables = s.tables := by
  cases hl : s.events.delivery[t.request.domain].inService with
  | nil => rw [State.completeEffect_of_nil hl, State.finishWith_tables]
  | cons x rest => rw [State.completeEffect_of_cons hl, State.reexamineAll_tables, State.finish_tables]; rfl

theorem State.clearServiceEffect_tables (t : Taken) (s : State) : (s.clearServiceEffect t).tables = s.tables := by
  unfold State.clearServiceEffect
  dsimp only
  rw [State.reexamineAll_tables, State.finish_tables, State.mapDelivery_tables]

theorem State.thresholdEffect_tables (t : Taken) (s : State) : (s.thresholdEffect t).tables = s.tables := by
  unfold State.thresholdEffect
  dsimp only
  rw [State.reexamine_tables, State.finish_tables, State.mapDelivery_tables]

/-- Of the services only a CTL_WRITE changes the tables. -/
theorem Service.tables {P : AdmissionUnit → Prop} {c : Instr} {t : Taken} {s u : State} (hu : Service c t s u)
    (hw : ∀ v, RecordWrite t.request s v → P v.tables) (h : P s.tables) : P u.tables := by
  have k := tables_movesKept P
  cases hu with
  | refused st => rwa [State.finishWith_tables]
  | admitted i hi => exact k.workKept.admitData t i s (s.checkData_takes t.request i hi) h
  | synced _ => exact k.workKept.examine _ _ _ (k.mapEntry _ _ h)
  | claimed =>
    obtain ⟨v, fill, heq, hv, -⟩ := s.claimEffect_made t
    rw [heq, State.reexamine_tables, State.finish_tables, hv]
    exact h
  | completed => rwa [State.completeEffect_tables]
  | cleared => rwa [State.clearServiceEffect_tables]
  | threshold => rwa [State.thresholdEffect_tables]
  | messaged =>
    rw [State.messageEffect, State.finish_tables]
    exact foldl_kept (P := fun v : State => P v.tables) (fun v e hv => k.latch v (.msg t.request.channel e) hv) _ s h
  | recordRead => rwa [State.finish_tables]
  | recordWritten v hv => rw [State.finishWith_tables]; exact hw v hv
  | acted f hf y hy => rw [State.finishWith_tables]; exact h
  | captureCleared => rw [State.finishWith_tables]; exact h
  | reset hc hr => rw [State.finishWith_tables]; exact k.resetBay _ h

theorem State.linkReset_tables (s : State) : s.linkReset.tables = { s.tables with lastServed := 7 } :=
  (tables_movesKept fun x => x = { s.tables with lastServed := 7 }).linkReset (fun v h => v.eventLinkReset_tables.trans h) rfl

theorem State.takePacket_tables (words : List Word) (s : State) : (s.takePacket words).tables = s.tables := by
  unfold State.takePacket
  split
  · split
    · unfold State.intakeRequest
      split <;> rfl
    · rfl
  · exact State.offer_tables ..

theorem State.transmit_tables (s : State) : s.transmit.tables = s.tables := by
  unfold State.transmit
  split
  · rfl
  · split
    · rfl
    · split
      · exact (tables_movesKept fun x => x = s.tables).takeResponse _ rfl
      · rfl

/-- What a property of the tables has to bear to be kept by every command: the value after a power-on reset, what CTL_WRITE puts in place, and the last-served domain. -/
theorem exec_tables {P : AdmissionUnit → Prop} (hreset : P AdmissionUnit.initial) (hserved : ∀ x d, P x → P { x with lastServed := d })
    (hw : ∀ r s v, RecordWrite r s v → P s.tables → P v.tables) {c : Instr} {s u : State} (hs : P s.tables) (h : exec c s = .next u) : P u.tables := by
  rcases command_sorts c with hc | hc | hc
  · cases c with
    | powerOnReset => obtain rfl := Host.Outcome.next.inj h; exact hreset
    | linkGained => obtain rfl := Host.Outcome.next.inj h; exact hs
    | linkLost =>
      simp only [exec, execLinkLost] at h
      split at h <;> obtain rfl := Host.Outcome.next.inj h
      · rw [State.linkReset_tables]; exact hserved _ _ hs
      · exact hs
    | packetReceived words => exact MovesKept.of_guarded (P := fun s => P s.tables) hs (by rwa [State.takePacket_tables]) h
    | transmitChoice =>
      simp only [exec, execTransmitChoice] at h
      split at h <;> obtain rfl := Host.Outcome.next.inj h
      · rwa [State.transmit_tables]
      · exact hs
    | _ => cases hc
  · exact (tables_movesKept P).exec_ofBay hc hs h
  · rcases exec_arbiter_cases hc h with rfl | ⟨t, -, -, hservice⟩
    · exact hs
    · have ht : P (s.takeRequest t).tables := hserved _ _ hs
      exact hservice.tables (fun v hv => hw _ _ v hv ht) ht

theorem apertureOfWords_sound {ws : List Word} {a : Aperture} (h : apertureOfWords ws = some a) (hv : a.valid = true) : a.sound = true := by
  unfold apertureOfWords at h
  split at h
  · split at h
    · cases h; cases hv
    · split at h
      · split at h
        · next hs => cases h; exact hs
        · cases h
      · cases h
  · cases h

theorem writeAperture_aperturesSound {r : Request} {s v : State} (h : writeAperture r s = some v) (hs : s.tables.AperturesSound) : v.tables.AperturesSound := by
  obtain ⟨a, ha, rfl⟩ := Option.map_eq_some_iff.1 h
  intro i hi
  dsimp only [Fin.getElem_fin] at hi ⊢
  rw [Vector.getElem_set] at hi ⊢
  split at hi
  · next he => rw [if_pos he]; exact apertureOfWords_sound ha hi
  · next he => rw [if_neg he]; exact hs i hi

/-- No other CTL_WRITE reaches the aperture table. -/
theorem RecordWrite.aperturesSound {r : Request} {s v : State} (h : RecordWrite r s v) (hs : s.tables.AperturesSound) : v.tables.AperturesSound := by
  cases h with
  | aperture h => exact writeAperture_aperturesSound h hs
  | domain h =>
    obtain ⟨x, -, rfl⟩ := Option.map_eq_some_iff.1 h
    dsimp only
    split
    · exact hs
    · rw [State.reexamine_tables]; exact hs
  | grant h => obtain ⟨x, -, rfl⟩ := Option.map_eq_some_iff.1 h; exact hs
  | route h => obtain ⟨x, -, rfl⟩ := Option.map_eq_some_iff.1 h; rw [State.reexamineAll_tables]; exact hs
  | descriptor h => obtain ⟨x, -, rfl⟩ := Option.map_eq_some_iff.1 h; exact hs
  | limit h => obtain ⟨x, -, rfl⟩ := Option.map_eq_some_iff.1 h; exact hs
  | policy h =>
    obtain ⟨x, -, rfl⟩ := Option.map_eq_some_iff.1 h
    refine foldl_kept (P := fun u : State => u.tables.AperturesSound) (fun u k hu => ?_) _ _ hs
    unfold State.withdraw
    dsimp only
    split
    · rw [State.reexamine_tables]; exact hu
    · exact hu

theorem exec_aperturesSound {c : Instr} {s u : State} (hs : s.tables.AperturesSound) (h : exec c s = .next u) : u.tables.AperturesSound :=
  exec_tables State.reset_aperturesSound (fun _ _ hx => hx) (fun _ _ _ => RecordWrite.aperturesSound) hs h

/-! ### The uplink -/

theorem uplink_movesKept (P : Uplink → Prop) : MovesKept fun s => P s.uplink where
  tracker _ _ h := h
  bays _ _ h := h
  offer s o h := by rw [s.offer_uplink]; exact h
  latch s it h := by rw [s.latch_uplink]; exact h

theorem State.linkReset_uplink (s : State) : s.linkReset.uplink = s.uplink.lost :=
  (uplink_movesKept fun x => x = s.uplink.lost).linkReset (fun v h => v.eventLinkReset_uplink.trans h) rfl

/-- The intake queue of one domain changes. -/
theorem Uplink.Bounded.setIntake {u : Uplink} (h : u.Bounded) (d : DomainId) {q : List Request} (hlen : q.length ≤ Config.intakeDepth)
    (hq : ∀ r ∈ q, r.domain = d ∧ r.Formed) : Uplink.Bounded { u with intake := u.intake.set d q } := by
  refine ⟨fun d' => ?_, h.2⟩
  dsimp only [Fin.getElem_fin]
  rw [Vector.getElem_set]
  split
  · next he =>
    obtain rfl := Fin.ext he
    exact ⟨hlen, hq⟩
  · exact h.1 d'

theorem Uplink.Bounded.served {u : Uplink} (h : u.Bounded) (d : DomainId) : Uplink.Bounded { u with intake := u.intake.set d u.intake[d].tail } := by
  obtain ⟨hlen, hq⟩ := h.1 d
  refine h.setIntake d ?_ fun r hr => hq r (List.mem_of_mem_tail hr)
  rw [List.length_tail]
  omega

theorem Uplink.bounded_lost (u : Uplink) : u.lost.Bounded := by
  refine ⟨fun d => ?_, Nat.zero_le _⟩
  rw [show u.lost.intake[d] = [] from Vector.getElem_replicate d.isLt]
  exact ⟨Nat.zero_le _, nofun⟩

/-- What the receiver has checked of a THRESHOLD and of a MESSAGE (Table 9-1). -/
theorem formed_of_parseRequest {w0 w1 w2 : Word} {payload : List Word} {r : Request} (h : parseRequest w0 w1 w2 payload = some r) : r.Formed := by
  unfold parseRequest at h
  split at h
  · split at h
    · cases h
    · next k _ hform =>
      cases h
      have haux : (BitVec.ofNat 8 (headerAux w2)).toNat = headerAux w2 := by
        rw [BitVec.toNat_ofNat]; exact Nat.mod_eq_of_lt (bits_lt _ _ _)
      simp only [formFails, Bool.or_eq_true, Bool.and_eq_true, beq_iff_eq, decide_eq_true_eq, not_or, not_and] at hform
      obtain ⟨⟨-, hthreshold⟩, hmessage⟩ := hform
      refine ⟨fun hk => ?_, fun hk => ?_⟩
      · show (BitVec.ofNat 8 (headerAux w2)).toNat ≤ 15
        rw [haux]
        exact Nat.le_of_not_lt (hthreshold hk)
      · show (BitVec.ofNat 8 (headerAux w2)).toNat ≤ 3
        rw [haux]
        exact Nat.le_of_not_lt (hmessage hk)
  · cases h

theorem State.refuse_bounded {s : State} (f : UplinkRefusal) (h : s.uplink.Bounded) (hr : s.uplink.refusals.length < Config.refusalDepth) :
    (s.refuse f).uplink.Bounded := by
  refine ⟨h.1, ?_⟩
  show (s.uplink.refusals ++ [f]).length ≤ _
  rw [List.length_append]
  exact hr

theorem State.takePacket_bounded (words : List Word) {s : State} (h : s.uplink.Bounded) (hr : s.receives = true) : (s.takePacket words).uplink.Bounded := by
  have hroom : s.uplink.refusals.length < Config.refusalDepth := by
    simp only [State.receives, Bool.and_eq_true, decide_eq_true_eq] at hr
    exact hr.2
  unfold State.takePacket
  split
  · split
    · next r hparse =>
      unfold State.intakeRequest
      split
      · next hlen =>
        refine h.setIntake r.domain ?_ fun x hx => ?_
        · rw [List.length_append]; exact hlen
        · rcases List.mem_append.1 hx with hx | hx
          · exact (h.1 r.domain).2 x hx
          · rw [List.mem_singleton.1 hx]; exact ⟨rfl, formed_of_parseRequest hparse⟩
      · exact State.refuse_bounded _ h hroom
    · exact State.refuse_bounded _ h hroom
  · rw [State.offer_uplink]; exact h

theorem State.transmit_bounded {s : State} (h : s.uplink.Bounded) : s.transmit.uplink.Bounded := by
  unfold State.transmit
  split
  · exact h
  · split
    · next r rs hrefusals =>
      refine ⟨h.1, ?_⟩
      have hlen := h.2
      rw [hrefusals, List.length_cons] at hlen
      exact Nat.le_of_succ_le hlen
    · split
      · exact (uplink_movesKept Uplink.Bounded).takeResponse _ h
      · exact h

theorem exec_uplinkBounded {c : Instr} {s u : State} (hs : s.uplink.Bounded) (h : exec c s = .next u) : u.uplink.Bounded := by
  rcases command_sorts c with hc | hc | hc
  · cases c with
    | powerOnReset => obtain rfl := Host.Outcome.next.inj h; exact State.reset_uplinkBounded
    | linkGained => obtain rfl := Host.Outcome.next.inj h; exact hs
    | linkLost =>
      simp only [exec, execLinkLost] at h
      split at h <;> obtain rfl := Host.Outcome.next.inj h
      · rw [State.linkReset_uplink]; exact Uplink.bounded_lost _
      · exact hs
    | packetReceived words =>
      simp only [exec, execPacketReceived] at h
      split at h <;> obtain rfl := Host.Outcome.next.inj h
      · next hr => exact State.takePacket_bounded words hs hr
      · exact hs
    | transmitChoice =>
      simp only [exec, execTransmitChoice] at h
      split at h <;> obtain rfl := Host.Outcome.next.inj h
      · exact State.transmit_bounded hs
      · exact hs
    | _ => cases hc
  · exact (uplink_movesKept Uplink.Bounded).exec_ofBay hc hs h
  · rcases exec_arbiter_cases hc h with rfl | ⟨t, hn, hserves, -⟩
    · exact hs
    · obtain ⟨v, hv, hturn⟩ := exec_takesTurn hn hserves
      obtain rfl := Host.Outcome.next.inj (h.symm.trans hv)
      rw [hturn.uplink]
      exact hs.served t.domain

/-- Settles O56: the receiver fills the queues only while they have room, a service and the transmitter take from them, and the one write of an aperture is checked. -/
theorem uplinkAndAperturesStayBounded : Obligations.UplinkAndAperturesStayBounded := fun _ _ h =>
  ⟨fun hs => step_kept (P := fun s => s.uplink.Bounded) (fun _ _ hv => hv) (fun _ _ _ hv he => exec_uplinkBounded hv he) hs h,
   fun hs => step_kept (P := fun s => s.tables.AperturesSound) (fun _ _ hv => hv) (fun _ _ _ hv he => exec_aperturesSound hv he) hs h⟩

end Sys2Proof.Machine

/-! The receiver and the transmitter (Chapter 9): the form check against Table 9-1, the request and the refusal that a header makes, and the packets the transmitter sends. -/

namespace Sys2Proof.Machine

/-! ### The fields of a header (Table 9-3) -/

theorem headerDomain_val (w : Word) : (headerDomain w).val = bits w 25 3 := Nat.mod_eq_of_lt (bits_lt w 25 3)

theorem headerTag_toNat (w : Word) : (headerTag w).toNat = bits w 17 8 := by
  rw [headerTag, BitVec.toNat_ofNat]; exact Nat.mod_eq_of_lt (bits_lt w 17 8)

theorem headerMask_toNat (w : Word) : (headerMask w).toNat = bits w 24 8 := by
  rw [headerMask, BitVec.toNat_ofNat]; exact Nat.mod_eq_of_lt (bits_lt w 24 8)

theorem headerAux_toNat (w : Word) : (BitVec.ofNat 8 (headerAux w)).toNat = bits w 16 8 := by
  rw [BitVec.toNat_ofNat]; exact Nat.mod_eq_of_lt (bits_lt w 16 8)

theorem refusalOf_refuses (w : Word) (st : Status) : (refusalOf w st).Refuses w st := by
  refine ⟨?_, headerDomain_val w, headerTag_toNat w, rfl⟩
  show (BitVec.ofNat 4 (headerKind w)).toNat = _
  rw [BitVec.toNat_ofNat]
  exact Nat.mod_eq_of_lt (bits_lt w 28 4)

/-- A size code of a header is 0 to 7, and only the codes 1 to 4 name a size. -/
theorem sizeOfCode_header (w : Word) : sizeOfCode (headerSizeCode w) = codedSize w := by
  have h := bits_lt w 4 3
  unfold headerSizeCode codedSize
  generalize bits w 4 3 = n at h ⊢
  revert n
  decide

/-- The kind codes with a request kind are those below 14 (Table 9-5). -/
theorem ReqKind.ofCode_eq_none_iff (w : Word) : ReqKind.ofCode (headerKind w) = none ↔ 14 ≤ bits w 28 4 := by
  have h := bits_lt w 28 4
  unfold headerKind
  generalize bits w 28 4 = n at h ⊢
  revert n
  decide

/-- The kinds that the form check tells apart, by their codes (Table 9-5). -/
structure ReqKind.HasCode (k : ReqKind) (n : Nat) : Prop where
  below : n < 14
  data : k.isData = true ↔ n ≤ 4
  block : k.isBlock = true ↔ n = 2 ∨ n = 3
  fetchAdd : k = .fetchAdd ↔ n = 4
  threshold : k = .threshold ↔ n = 8
  message : k = .message ↔ n = 9
  ctlWrite : k = .ctlWrite ↔ n = 12

theorem ReqKind.hasCode_of_ofCode {n : Nat} {k : ReqKind} (h : ReqKind.ofCode n = some k) : k.HasCode n := by
  unfold ReqKind.ofCode at h
  split at h <;> cases h <;> exact ⟨by decide, by decide, by decide, by decide, by decide, by decide, by decide⟩

theorem Stride.ofCode_eq_none_iff {n : Nat} (h : n < 4) : Stride.ofCode n = .none ↔ n = 0 := by
  revert n
  decide

/-- The payload length of Table 9-2 by kind and by kind code. -/
theorem tablePayload_eq {w0 w2 : Word} {k : ReqKind} (hk : ReqKind.ofCode (bits w0 28 4) = some k) :
    tablePayload k (codedSize w0) (bits w2 0 9) = requiredLength w0 w2 := by
  have hsize : codedSize w0 = 8 ↔ bits w0 4 3 = 4 := by
    have h := bits_lt w0 4 3
    unfold codedSize
    generalize bits w0 4 3 = n at h ⊢
    revert n
    decide
  unfold requiredLength
  generalize bits w0 28 4 = n at hk ⊢
  unfold ReqKind.ofCode at hk
  split at hk <;> cases hk <;> simp only [tablePayload, beq_iff_eq, hsize]

/-- A packet of a request kind fails the form check where it meets an entry of Table 9-1. -/
theorem formFails_iff {w0 w1 w2 : Word} {payload : List Word} {k : ReqKind} (hk : ReqKind.ofCode (headerKind w0) = some k) :
    formFails k w0 w1 w2 payload = true ↔ Malformed w0 w1 w2 payload := by
  obtain ⟨hbelow, hdata, hblock, hfetch, hthreshold, hmessage, hwrite⟩ := ReqKind.hasCode_of_ofCode hk
  have hcoded : codedSize w0 = 0 ↔ bits w0 4 3 = 0 ∨ 5 ≤ bits w0 4 3 := by
    unfold codedSize
    split
    · omega
    · simp only [Nat.pow_eq_zero]; omega
  have hnotData : 5 ≤ bits w0 28 4 ↔ ¬ bits w0 28 4 ≤ 4 := by omega
  have hrequest : ¬ 14 ≤ bits w0 28 4 := Nat.not_le.2 hbelow
  unfold formFails Malformed headerLength headerSizeCode headerCount headerStride headerAux
  dsimp only
  rw [show sizeOfCode (bits w0 4 3) = codedSize w0 from sizeOfCode_header w0, tablePayload_eq hk]
  unfold headerKind at hbelow hdata hblock hfetch hthreshold hmessage hwrite
  simp only [Bool.or_eq_true, Bool.and_eq_true, Bool.not_eq_true', decide_eq_true_eq, bne_iff_ne, beq_iff_eq, ne_eq,
    ← Bool.not_eq_true, hdata, hblock, hfetch, hthreshold, hmessage, hwrite, Stride.ofCode_eq_none_iff (bits_lt w0 2 2), hcoded, Nat.dvd_iff_mod_eq_zero,
    or_assoc, not_or, and_assoc, hnotData, hrequest, false_or]
  rfl

/-- The receiver parses a packet exactly where it meets no entry of Table 9-1. -/
theorem parseRequest_of_malformed {w0 w1 w2 : Word} {payload : List Word} (h : Malformed w0 w1 w2 payload) : parseRequest w0 w1 w2 payload = none := by
  unfold parseRequest
  split
  · next k hk => rw [if_pos ((formFails_iff hk).2 h)]
  · rfl

theorem parseRequest_of_good {w0 w1 w2 : Word} {payload : List Word} (h : ¬ Malformed w0 w1 w2 payload) :
    ∃ r, parseRequest w0 w1 w2 payload = some r ∧ r.Reads w0 w1 w2 payload := by
  cases hk : ReqKind.ofCode (headerKind w0) with
  | none => exact absurd (.inl ((ReqKind.ofCode_eq_none_iff w0).1 hk)) h
  | some k =>
    refine ⟨requestOf k w0 w1 w2 payload, ?_, hk, headerDomain_val w0, headerTag_toNat w0, sizeOfCode_header w0, rfl, rfl, headerMask_toNat w2,
      headerAux_toNat w2, rfl, rfl⟩
    simp only [parseRequest, hk]
    rw [if_neg fun hform => h ((formFails_iff hk).1 hform)]

/-! ### The receiver (R159 to R162) -/

theorem exec_packetReceived_of_room {s : State} (words : List Word) (hlink : s.uplink.link = .up) (hroom : s.uplink.refusals.length < 8) :
    exec (.packetReceived words) s = .next (s.takePacket words) := by
  have hr : s.receives = true := by simp [State.receives, hlink, Config.refusalDepth, hroom]
  simp only [exec, execPacketReceived, if_pos hr]

theorem exec_packetReceived_of_waiting {s : State} (words : List Word) (h : s.uplink.link = .down ∨ 8 ≤ s.uplink.refusals.length) :
    exec (.packetReceived words) s = .next s := by
  have hr : ¬ s.receives = true := by
    simp only [State.receives, Bool.and_eq_true, beq_iff_eq, decide_eq_true_eq]
    rintro ⟨hup, hlt⟩
    unfold Config.refusalDepth at hlt
    rcases h with h | h
    · rw [h] at hup; cases hup
    · omega
  simp only [exec, execPacketReceived, if_neg hr]

/-- Settles O5: the receiver takes a packet only with the link UP and room for a refusal; fewer than three words make a runt, and the form check is Table 9-1. -/
theorem runtAndMalformedPacketsAreNotPlaced : Obligations.RuntAndMalformedPacketsAreNotPlaced := by
  refine ⟨fun words s hshort hlink hroom => ?_, fun w0 w1 w2 payload s hlink hroom hbad => ?_, fun words s h => exec_packetReceived_of_waiting words h⟩
  · rw [exec_packetReceived_of_room words hlink hroom]
    match words, hshort with
    | [], _ | [_], _ | [_, _], _ => rfl
    | _ :: _ :: _ :: _, h => simp only [List.length_cons] at h; omega
  · refine ⟨refusalOf w0 .malformed, refusalOf_refuses w0 _, ?_⟩
    rw [exec_packetReceived_of_room _ hlink hroom]
    simp only [State.takePacket, parseRequest_of_malformed hbad, State.refuse]

/-- Settles O6: a packet of good form makes the request its header reads, which its domain's queue takes while it holds fewer than 8. -/
theorem goodPacketJoinsIntakeQueue : Obligations.GoodPacketJoinsIntakeQueue := by
  refine ⟨by decide, by decide, fun w0 w1 w2 payload s hlink hroom hgood => ?_⟩
  obtain ⟨r, hparse, hreads⟩ := parseRequest_of_good hgood
  refine ⟨r, refusalOf w0 .queueFull, hreads, refusalOf_refuses w0 _, ?_⟩
  rw [exec_packetReceived_of_room _ hlink hroom]
  simp only [State.takePacket, hparse]
  by_cases hspace : s.uplink.intake[r.domain].length < 8
  · rw [if_pos hspace, State.intakeRequest, if_pos (show _ < Config.intakeDepth from hspace)]
  · rw [if_neg hspace, State.intakeRequest, if_neg (show ¬ _ < Config.intakeDepth from hspace)]; rfl

/-! ### The transmitter (R163) -/

theorem State.noticeDomain_eq_none {s : State} (h : ∀ d : DomainId, s.events.delivery[d].notice = false) : s.noticeDomain = none :=
  List.find?_eq_none.2 fun d _ => by rw [h d]; nofun

/-- The lowest domain with a notice waiting. -/
theorem State.noticeDomain_eq_some {s : State} {d : DomainId} (hd : s.events.delivery[d].notice = true)
    (hlow : ∀ d' < d, s.events.delivery[d'].notice = false) : s.noticeDomain = some d :=
  (find?_finRange_eq_some_iff (fun d : DomainId => s.events.delivery[d].notice) d).2 ⟨hd, fun d' h => by simpa using hlow d' h⟩

theorem exec_transmitChoice_of_up {s : State} (h : s.uplink.link = .up) : exec .transmitChoice s = .next s.transmit := by
  simp only [exec, execTransmitChoice, h]

theorem exec_transmitChoice_of_down {s : State} (h : s.uplink.link = .down) : exec .transmitChoice s = .next s := by
  simp only [exec, execTransmitChoice, h]

theorem State.transmit_of_notice {s : State} {d : DomainId} (h : s.noticeDomain = some d) :
    s.transmit = (s.send (noticeWords d (s.noticePriority d))).mapDelivery d fun y => { y with notice := false } := by
  simp only [State.transmit, h]

theorem State.transmit_of_refusal {s : State} {r : UplinkRefusal} {rs : List UplinkRefusal} (hn : s.noticeDomain = none)
    (hr : s.uplink.refusals = r :: rs) : s.transmit = { s with uplink := { s.uplink with refusals := rs, outLink := some r.words } } := by
  simp only [State.transmit, hn, hr, State.send]

theorem State.transmit_of_response {s : State} {e : EntryId} {rest : List EntryId} (hn : s.noticeDomain = none) (hr : s.uplink.refusals = [])
    (ho : s.tracker.order = e :: rest) : s.transmit = (s.send s.tracker.entries[e].responseWords).takeResponse e := by
  simp only [State.transmit, hn, hr, ho]

theorem State.transmit_of_nothing {s : State} (hn : s.noticeDomain = none) (hr : s.uplink.refusals = []) (ho : s.tracker.order = []) : s.transmit = s := by
  simp only [State.transmit, hn, hr, ho]

/-! ### The words of the outbound packets (Table 9-4) -/

theorem bitVal_eq_toNat (b : Bool) : bitVal b = b.toNat := by cases b <;> rfl

theorem packFields_eq (fs : List (Nat × Nat)) : packFields fs = BitVec.ofNat 32 (packSum fs) := by
  apply BitVec.eq_of_toNat_eq
  rw [packFields_toNat, BitVec.toNat_ofNat]

theorem Response.words_eq (r : Response) : r.words =
    BitVec.ofNat 32 (14 * 2 ^ 28 + r.domain * 2 ^ 25 + r.tag.toNat * 2 ^ 17 + r.payload.length * 2 ^ 7 + r.status.code * 2 ^ 2)
      :: BitVec.ofNat 32 (r.flags.carry.toNat * 2 ^ 16 + r.flags.spurious.toNat * 2 ^ 17 + r.flags.defect.toNat * 2 ^ 18 + r.flags.untracked.toNat * 2 ^ 19
          + r.flags.postedFault.toNat * 2 ^ 20 + r.unitsDone)
      :: r.result :: r.payload := by
  unfold Response.words
  rw [packFields_eq, packFields_eq]
  simp only [Flags.word, List.cons_append, List.nil_append, packSum_cons, packSum_nil, responseCode, bitVal_eq_toNat]
  exact congr (congrArg List.cons (congrArg _ (by omega))) (congr (congrArg List.cons (congrArg _ (by omega))) rfl)

theorem noticeWords_head (d : DomainId) : (packFields [(noticeCode, 28), (d, 25)]).toNat = 15 * 2 ^ 28 + d * 2 ^ 25 := by
  rw [packFields_toNat]
  simp only [packSum_cons, packSum_nil, noticeCode]
  omega

theorem noticeWords_priority {p : Nat} (h : p < 16) : (packFields [(p, 0)]).toNat = p := by
  rw [packFields_toNat]
  simp only [packSum_cons, packSum_nil]
  omega

/-- Settles O7: a notice comes before a refusal, and a refusal before a response; with none of them nothing is sent. -/
theorem transmitterTakesNoticeThenRefusal : Obligations.TransmitterTakesNoticeThenRefusal := by
  refine ⟨fun s h => ?nothing, fun s hlink => ⟨fun d hd hlow => ?notice, fun hn r rs hr => ⟨?refusal, ?words⟩⟩⟩
  case nothing =>
    rcases h with hdown | ⟨hn, hr, ho⟩
    · exact exec_transmitChoice_of_down hdown
    · cases hl : s.uplink.link with
      | down => exact exec_transmitChoice_of_down hl
      | up => rw [exec_transmitChoice_of_up hl, State.transmit_of_nothing (State.noticeDomain_eq_none hn) hr ho]
  case notice =>
    refine ⟨packFields [(noticeCode, 28), (d, 25)], packFields [(s.noticePriority d, 0)], noticeWords_head d, fun it hit => ?_, fun hnone => ?_, ?_⟩
    · rw [State.noticePriority, hit]
      exact noticeWords_priority (Fin.isLt _)
    · rw [State.noticePriority, hnone]; rfl
    · rw [exec_transmitChoice_of_up hlink, State.transmit_of_notice (State.noticeDomain_eq_some hd hlow)]; rfl
  case refusal =>
    rw [exec_transmitChoice_of_up hlink, State.transmit_of_refusal (State.noticeDomain_eq_none hn) hr]
  case words =>
    unfold UplinkRefusal.words
    rw [Response.words_eq]
    simp

/-- What the taking of a DONE response leaves of the other entries and adds to the response order (R43, R60). -/
theorem State.takeResponse_of_done {s : State} {e : EntryId} (hd : s.tracker.entries[e].state = .done) :
    s.takeResponse e = (State.freeEntry e { s with tracker := { s.tracker with order := s.tracker.order.tail } }).examine [] [s.tracker.entries[e].domain] := by
  simp only [State.takeResponse, hd, beq_self_eq_true, if_true]

theorem State.takeResponse_of_open {s : State} {e : EntryId} (hd : s.tracker.entries[e].state ≠ .done) :
    s.takeResponse e = State.dropResponse e { s with tracker := { s.tracker with order := s.tracker.order.tail } } := by
  simp only [State.takeResponse, beq_iff_eq, if_neg hd]

/-- Settles O8: the head of the response order is taken; freeing a DONE entry is followed by the examination of its domain's SYNCs, which reaches no other entry. -/
theorem transmitterTakesHeadResponse : Obligations.TransmitterTakesHeadResponse := by
  refine ⟨Response.words_eq, by decide, fun s e rest r hlink hn hr ho hresp => ?_⟩
  have hwords : s.tracker.entries[e].responseWords = r.words := by simp only [Entry.responseWords, hresp]
  rw [exec_transmitChoice_of_up hlink, State.transmit_of_response (State.noticeDomain_eq_none hn) hr ho, hwords]
  refine ⟨fun hd => ?done, fun hd => ?opened⟩
  case opened =>
    rw [State.takeResponse_of_open (s := s.send r.words) hd]
    simp only [State.send, ho, List.tail_cons]
    rfl
  case done =>
    rw [State.takeResponse_of_done (s := s.send r.words) hd, show (s.send r.words).tracker.entries[e].domain = s.tracker.entries[e].domain from rfl]
    generalize hv : State.freeEntry e { s.send r.words with tracker := { (s.send r.words).tracker with order := (s.send r.words).tracker.order.tail } } = v
    have hfree : v.tracker.entries[e] = Entry.blank := by rw [← hv]; exact State.freeEntry_same e _
    have hother (x : EntryId) (hx : x ≠ e) : v.tracker.entries[x] = s.tracker.entries[x] := by rw [← hv]; exact State.freeEntry_other hx _
    refine ⟨_, rfl, ?_, ?_, ?_, ?_, ?_, ?_, ?_, ?_, fun x hx hwait hresponse => ?_⟩
    · rw [State.examine_nil_uplink, ← hv]; rfl
    · rw [State.examine_nil_tables, ← hv]; rfl
    · rw [State.examine_nil_bays, ← hv]; rfl
    · rw [State.examine_nil_events, ← hv]; rfl
    · rw [State.examine_nil_capture, ← hv]; rfl
    · rw [State.examine_nil_keeps _ _ e (by rw [hfree]; nofun) (by rw [hfree]; nofun), hfree]; rfl
    · rw [State.examine_nil_tracker_taken, ← hv, State.freeEntry_taken]
      simp
    · obtain ⟨later, hlater⟩ := State.examine_nil_order [s.tracker.entries[e].domain] v
      refine ⟨later, ?_⟩
      rw [hlater, ← hv, State.freeEntry_order]
      simp only [State.send, ho, List.tail_cons]
    · rw [State.examine_nil_keeps _ _ x (by rw [hother x hx]; simpa using hwait) (by rw [hother x hx]; exact hresponse), hother x hx]

end Sys2Proof.Machine

/-! The services of the admission arbiter (2.3, 2.4): that each takes its request alone, and that a refused one has no effect. -/

namespace Sys2Proof.Machine

/-! ### A request that is refused -/

/-- The request taken is answered with a status, and nothing but its service has happened. -/
def State.AnsweredAlone (s : State) (t : Taken) (st : Status) (payload : List Word) (u : State) : Prop :=
  s.Served t u ∧ s.AnsweredWith t st {} 0 payload u ∧ s.TablesKept u ∧ u.bays = s.bays ∧ u.events = s.events ∧ u.capture = s.capture

/-- The kinds whose response carries the data buffer start with an empty one. -/
theorem Request.writeBuffer_of_returnsBuffer (r : Request) : (if r.kind.returnsBuffer then r.writeBuffer else []) = [] := by
  unfold Request.writeBuffer
  cases r.kind <;> rfl

theorem State.takeRequest_tablesKept (t : Taken) (s : State) : s.TablesKept (s.takeRequest t) := ⟨rfl, rfl, rfl, rfl⟩

theorem State.answeredAlone_finishWith (s : State) (t : Taken) (st : Status) : s.AnsweredAlone t st [] ((s.takeRequest t).finishWith t st) := by
  have hanswered : s.AnsweredWith t st {} 0 (if t.request.kind.returnsBuffer then t.request.writeBuffer else []) ((s.takeRequest t).finishWith t st) :=
    State.answered_finish rfl id rfl rfl
  rw [Request.writeBuffer_of_returnsBuffer] at hanswered
  refine ⟨State.served_finish rfl rfl rfl rfl fun _ => ⟨rfl, rfl, rfl⟩, hanswered, ?_, State.finishWith_bays .., State.finishWith_events ..,
    State.finishWith_capture ..⟩
  unfold State.TablesKept
  rw [State.finishWith_tables]
  exact s.takeRequest_tablesKept t

/-! ### What each command does with its request (Table 2-4) -/

/-- The first steps of admission, common to every service: a domain that is not enabled is refused, and another has its request looked at further. -/
inductive Admits (c : Instr) (t : Taken) (s : State) : Prop
  | data (hk : t.request.kind.isData = true) (h : exec c s = .next ((s.takeRequest t).admission t))
  | sync (hk : t.request.kind = .sync) (h : exec c s = .next ((s.takeRequest t).admitSync t))
  | checked (act : Taken → State → State) (hk : t.request.kind ∈ [ReqKind.claim, .complete, .threshold, .message, .clearService, .ctlRead])
      (hact : t.request.kind = .ctlRead → act = State.admitRead)
      (h : exec c s = .next (if (s.takeRequest t).enabled t.request.domain then act t (s.takeRequest t) else (s.takeRequest t).finishWith t .domainOff))
  | write (apply : Request → State → Option State) (hk : t.request.kind = .ctlWrite) (h : exec c s = .next ((s.takeRequest t).admitWrite apply t))
  | action (act : Request → State → Option State) (st : Status) (hk : t.request.kind = .bayAction)
      (hact : t.request.action = 0 ∨ 10 < t.request.action → st = .badRecord ∧ ∀ r v, act r v = none)
      (h : exec c s = .next ((s.takeRequest t).admitAction act st t))

theorem exec_admits {s : State} {t : Taken} (hn : s.nextTaken = some t) {c : Instr} (hc : commandServes c t.request = true) : Admits c t s := by
  have hserve {want : Request → Bool} (act : Taken → State → State) (hw : want t.request = true) : s.serve want act = act t (s.takeRequest t) :=
    State.serve_of want act s t hn hw
  have hdata {k : ReqKind} (hk : (t.request.kind == k) = true) (hd : k.isData = true) (h : exec c s = .next (s.serveData k)) : Admits c t s :=
    .data (eq_of_beq hk ▸ hd) (by rw [h, State.serveData, hserve _ hk])
  have hchecked {k : ReqKind} {act : Taken → State → State} (hk : (t.request.kind == k) = true)
      (hm : k ∈ [ReqKind.claim, .complete, .threshold, .message, .clearService, .ctlRead]) (hact : k = .ctlRead → act = State.admitRead)
      (h : exec c s = .next (s.serveChecked k act)) : Admits c t s :=
    .checked act (eq_of_beq hk ▸ hm) (fun h => hact ((eq_of_beq hk).symm.trans h)) (by rw [h, State.serveChecked, hserve _ hk])
  have hwrite {g : Nat} {apply : Request → State → Option State} (hk : (t.request.kind == .ctlWrite && t.request.group == g) = true)
      (h : exec c s = .next (s.serveWrite g apply)) : Admits c t s :=
    .write apply (eq_of_beq (Bool.and_eq_true_iff.1 hk).1) (by rw [h, State.serveWrite, hserve _ hk])
  have haction {n : Nat} {act : Request → State → Option State} (hk : (t.request.kind == .bayAction && t.request.action == n) = true)
      (hnamed : ¬ (n = 0 ∨ 10 < n)) (h : exec c s = .next (s.serveAction n act)) : Admits c t s := by
    obtain ⟨hkind, hcode⟩ := Bool.and_eq_true_iff.1 hk
    exact .action act .badState (eq_of_beq hkind) (fun hu => absurd (eq_of_beq hcode ▸ hu) hnamed) (by rw [h, State.serveAction, hserve _ hk])
  cases c with
  | read | write | blockRead | blockWrite | fetchAdd => exact hdata hc rfl rfl
  | sync => exact .sync (eq_of_beq hc) (congrArg _ (hserve _ hc))
  | claim | complete | threshold | message | clearService => exact hchecked hc (by decide) nofun rfl
  | ctlRead => exact hchecked hc (by decide) (fun _ => rfl) rfl
  | ctlWriteAperture | ctlWriteDomain | ctlWriteGrant | ctlWriteRoute | ctlWriteDescriptor | ctlWriteDescLimit | ctlWriteBayPolicy => exact hwrite hc rfl
  | ctlWriteOtherGroup =>
    refine .write (fun _ _ => none) (eq_of_beq (Bool.and_eq_true_iff.1 hc).1) (congrArg _ (hserve _ ?_))
    rw [Request.otherGroup_eq]
    exact hc
  | powerOn | powerOff | auxOn | auxOff | reset | retry | parkLight | parkDeep | wake | captureClear => exact haction hc (by decide) rfl
  | bayActionUnknown =>
    exact .action (fun _ _ => none) .badRecord (eq_of_beq (Bool.and_eq_true_iff.1 hc).1) (fun _ => ⟨rfl, fun _ _ => rfl⟩) (congrArg _ (hserve _ hc))
  | _ => cases hc

theorem State.checkData_of_disabled {s : State} {r : Request} (h : s.tables.domains[r.domain].enabled = false) : s.checkData r = .refused .domainOff := by
  unfold State.checkData State.enabled
  rw [h]
  rfl

/-- Step 1: a request of a domain that is not enabled is refused DOMAIN_OFF (R26). -/
theorem Admits.of_disabled {c : Instr} {t : Taken} {s : State} (h : Admits c t s) (hd : s.tables.domains[t.request.domain].enabled = false) :
    exec c s = .next ((s.takeRequest t).finishWith t .domainOff) := by
  have hoff : (s.takeRequest t).enabled t.request.domain = false := hd
  cases h with
  | data hk h => rw [h, State.admission, State.checkData_of_disabled (s := s.takeRequest t) hd]
  | sync hk h => rw [h, State.admitSync, hoff]; rfl
  | checked act hk hact h => rw [h, hoff]; rfl
  | write apply hk h => rw [h, State.admitWrite, hoff]; rfl
  | action act st hk hact h => rw [h, State.admitAction, hoff]; rfl

/-- Step 2: a control request or bay action of a domain above its level is refused LEVEL (R26). -/
theorem Admits.of_level {c : Instr} {t : Taken} {s : State} (h : Admits c t s) (hd : s.tables.domains[t.request.domain].enabled = true)
    (hl : (t.request.kind = .ctlWrite ∨ t.request.kind = .bayAction) ∧ s.tables.domains[t.request.domain].level ≠ 0
      ∨ t.request.kind = .ctlRead ∧ 1 < s.tables.domains[t.request.domain].level) : exec c s = .next ((s.takeRequest t).finishWith t .level) := by
  have hon : (s.takeRequest t).enabled t.request.domain = true := hd
  cases h with
  | data hk h => rcases hl with ⟨h | h, -⟩ | ⟨h, -⟩ <;> rw [h] at hk <;> cases hk
  | sync hk h => rcases hl with ⟨h | h, -⟩ | ⟨h, -⟩ <;> rw [h] at hk <;> cases hk
  | checked act hk hact h =>
    rcases hl with ⟨hw | hw, -⟩ | ⟨hr, hlevel⟩
    · rw [hw] at hk; exact absurd hk (by decide)
    · rw [hw] at hk; exact absurd hk (by decide)
    · have hlow : ¬ (s.takeRequest t).tables.domains[t.request.domain].level ≤ 1 := Nat.not_le.2 hlevel
      rw [h, if_pos hon, hact hr, State.admitRead, if_neg hlow]
  | write apply hk h =>
    have hlevel : (s.takeRequest t).tables.domains[t.request.domain].level ≠ 0 := by
      rcases hl with ⟨-, hl⟩ | ⟨hr, -⟩
      · exact hl
      · rw [hk] at hr; cases hr
    rw [h, State.admitWrite, hon, if_neg hlevel]; rfl
  | action act st hk hact h =>
    have hlevel : (s.takeRequest t).tables.domains[t.request.domain].level ≠ 0 := by
      rcases hl with ⟨-, hl⟩ | ⟨hr, -⟩
      · exact hl
      · rw [hk] at hr; cases hr
    rw [h, State.admitAction, hon, if_neg hlevel]; rfl

theorem commandServes_isData {c : Instr} {r : Request} (hc : c = .read ∨ c = .write ∨ c = .blockRead ∨ c = .blockWrite ∨ c = .fetchAdd)
    (h : commandServes c r = true) : r.kind.isData = true := by
  rcases hc with rfl | rfl | rfl | rfl | rfl <;> rw [eq_of_beq h] <;> rfl

/-- A data request goes through its checks and no others. -/
theorem Admits.data_of_isData {c : Instr} {t : Taken} {s : State} (h : Admits c t s) (hk : t.request.kind.isData = true) :
    exec c s = .next ((s.takeRequest t).admission t) := by
  cases h with
  | data _ h => exact h
  | sync hk' h => rw [hk'] at hk; cases hk
  | checked act hk' hact h =>
    simp only [List.mem_cons, List.not_mem_nil, or_false] at hk'
    rcases hk' with h | h | h | h | h | h <;> rw [h] at hk <;> cases hk
  | write apply hk' h => rw [hk'] at hk; cases hk
  | action act st hk' hact h => rw [hk'] at hk; cases hk

/-- Settles O11: at each of the three failing steps the service is `finishWith` of its status. -/
theorem refusedRequestHasNoEffect : Obligations.RefusedRequestHasNoEffect := by
  intro c s t st hn hc h
  have hadmits := exec_admits hn hc
  refine ⟨_, ?_, s.answeredAlone_finishWith t st⟩
  rcases h with ⟨rfl, hd⟩ | ⟨rfl, hd, hl⟩ | ⟨hcmd, hcheck⟩
  · exact hadmits.of_disabled hd
  · exact hadmits.of_level hd hl
  · rw [hadmits.data_of_isData (commandServes_isData hcmd hc), State.admission, show (s.takeRequest t).checkData t.request = _ from hcheck]

/-! ### A request that names nothing (R39, R166) -/

/-- The groups of Table 10-1 as `groupInfo` gives them. -/
theorem groupInfo_iff (g : Nat) (i : GroupInfo) : groupInfo g = some i ↔ (g, i.writable, i.indices, i.length) ∈ recordGroups := by
  obtain ⟨w, n, l⟩ := i
  constructor
  · intro h
    unfold groupInfo at h
    split at h <;> cases h <;> decide
  · intro h
    simp only [recordGroups, List.mem_append, List.mem_cons, Prod.mk.injEq, List.not_mem_nil, or_false] at h
    rcases h with (h | h | h | h | h | h | h) | (h | h | h | h | h | h | h) <;> obtain ⟨rfl, rfl, rfl, rfl⟩ := h <;> rfl

theorem readable_iff (r : Request) : readable r = true ↔ r.NamesRecord := by
  unfold readable Request.NamesRecord
  cases hg : groupInfo r.group with
  | none =>
    refine ⟨nofun, fun ⟨row, hrow, hgroup, _⟩ => ?_⟩
    rw [(groupInfo_iff r.group ⟨row.2.1, row.2.2.1, row.2.2.2⟩).2 (by rw [hgroup]; exact hrow)] at hg
    cases hg
  | some i =>
    refine ⟨fun h => ⟨_, (groupInfo_iff _ _).1 hg, rfl, of_decide_eq_true h⟩, fun ⟨row, hrow, hgroup, hindex⟩ => ?_⟩
    rw [(groupInfo_iff r.group ⟨row.2.1, row.2.2.1, row.2.2.2⟩).2 (by rw [hgroup]; exact hrow)] at hg
    cases hg
    exact decide_eq_true hindex

theorem writable_iff (r : Request) : writable r = true ↔ r.CarriesRecord := by
  unfold writable Request.CarriesRecord
  cases hg : groupInfo r.group with
  | none =>
    refine ⟨nofun, fun ⟨row, hrow, hgroup, _⟩ => ?_⟩
    rw [(groupInfo_iff r.group ⟨row.2.1, row.2.2.1, row.2.2.2⟩).2 (by rw [hgroup]; exact hrow)] at hg
    cases hg
  | some i =>
    simp only [Bool.and_eq_true, decide_eq_true_eq, beq_iff_eq]
    refine ⟨fun ⟨⟨hw, hindex⟩, hlen⟩ => ⟨_, (groupInfo_iff _ _).1 hg, rfl, hw, hindex, hlen⟩, fun ⟨row, hrow, hgroup, hw, hindex, hlen⟩ => ?_⟩
    rw [(groupInfo_iff r.group ⟨row.2.1, row.2.2.1, row.2.2.2⟩).2 (by rw [hgroup]; exact hrow)] at hg
    cases hg
    exact ⟨⟨hw, hindex⟩, hlen⟩

theorem Admits.of_unreadable {c : Instr} {t : Taken} {s : State} (h : Admits c t s) (hk : t.request.kind = .ctlRead)
    (hd : s.tables.domains[t.request.domain].enabled = true) (hl : s.tables.domains[t.request.domain].level.val ≤ 1) (hr : ¬ t.request.NamesRecord) :
    exec c s = .next ((s.takeRequest t).finishWith t .badRecord) := by
  have hon : (s.takeRequest t).enabled t.request.domain = true := hd
  have hlevel : (s.takeRequest t).tables.domains[t.request.domain].level ≤ 1 := hl
  cases h with
  | checked act _ hact h => rw [h, if_pos hon, hact hk, State.admitRead, if_pos hlevel, if_neg (mt (readable_iff _).1 hr)]
  | data hk' h => rw [hk] at hk'; cases hk'
  | sync hk' h => rw [hk] at hk'; cases hk'
  | write apply hk' h => rw [hk] at hk'; cases hk'
  | action act st hk' hact h => rw [hk] at hk'; cases hk'

theorem Admits.of_unwritable {c : Instr} {t : Taken} {s : State} (h : Admits c t s) (hk : t.request.kind = .ctlWrite)
    (hd : s.tables.domains[t.request.domain].enabled = true) (hl : s.tables.domains[t.request.domain].level = 0) (hr : ¬ t.request.CarriesRecord) :
    exec c s = .next ((s.takeRequest t).finishWith t .badRecord) := by
  have hon : (s.takeRequest t).enabled t.request.domain = true := hd
  have hlevel : (s.takeRequest t).tables.domains[t.request.domain].level = 0 := hl
  cases h with
  | write apply hk' h => rw [h, State.admitWrite, hon, if_pos hlevel, if_neg (mt (writable_iff _).1 hr)]; rfl
  | data hk' h => rw [hk] at hk'; cases hk'
  | sync hk' h => rw [hk] at hk'; cases hk'
  | checked act hk' hact h => rw [hk] at hk'; exact absurd hk' (by decide)
  | action act st hk' hact h => rw [hk] at hk'; cases hk'

theorem Admits.of_unknown {c : Instr} {t : Taken} {s : State} (h : Admits c t s) (hk : t.request.kind = .bayAction)
    (hd : s.tables.domains[t.request.domain].enabled = true) (hl : s.tables.domains[t.request.domain].level = 0)
    (ha : t.request.action = 0 ∨ 10 < t.request.action) : exec c s = .next ((s.takeRequest t).finishWith t .badRecord) := by
  have hon : (s.takeRequest t).enabled t.request.domain = true := hd
  have hlevel : (s.takeRequest t).tables.domains[t.request.domain].level = 0 := hl
  cases h with
  | action act st hk' hact h =>
    obtain ⟨rfl, hnone⟩ := hact ha
    rw [h, State.admitAction, hon, if_pos hlevel, hnone]; rfl
  | data hk' h => rw [hk] at hk'; cases hk'
  | sync hk' h => rw [hk] at hk'; cases hk'
  | checked act hk' hact h => rw [hk] at hk'; exact absurd hk' (by decide)
  | write apply hk' h => rw [hk] at hk'; cases hk'

/-- Settles O28: `readable` and `writable` are Table 10-1, and a selector that names no action has none applied. -/
theorem requestThatNamesNothingIsBadRecord : Obligations.RequestThatNamesNothingIsBadRecord := by
  intro c s t hn hc hd h
  have hadmits := exec_admits hn hc
  refine ⟨_, ?_, s.answeredAlone_finishWith t .badRecord⟩
  rcases h with ⟨hk, hl, hr⟩ | ⟨hk, hl, hr⟩ | ⟨hk, hl, ha⟩
  · exact hadmits.of_unreadable hk hd hl hr
  · exact hadmits.of_unwritable hk hd hl hr
  · exact hadmits.of_unknown hk hd hl ha

/-- Settles O35: both actions are accepted in every state. -/
theorem auxActionsSwitchAuxRail : Obligations.AuxActionsSwitchAuxRail := fun _ _ =>
  ⟨fun h => ⟨_, rfl, State.onBay_accepted h rfl⟩, fun h => ⟨_, rfl, State.onBay_accepted h rfl⟩⟩

end Sys2Proof.Machine

/-! What a bay engine does by itself (6.7, 7.4): the ends of a park, of a wake and of a drain, and the arrival of entries in a bay queue. -/

namespace Sys2Proof.Machine

/-! ### The bus and the lanes -/

theorem Bay.busFree_iff (b : Bay) : b.busFree = true ↔ b.BusFree := by
  unfold Bay.busFree Bay.BusFree
  rw [Bool.and_eq_true, Bool.and_eq_true, Option.isNone_iff_eq_none, Option.isNone_iff_eq_none, and_assoc]
  refine and_congr_left fun _ => ?_
  cases b.state <;> decide

theorem Bay.callArbiter_of_busFree {b : Bay} (h : b.BusFree) : b.callArbiter = { b with due := true } := Bay.callArbiter_of_free ((b.busFree_iff).2 h)

theorem Bay.callArbiter_of_not_busFree {b : Bay} (h : ¬ b.BusFree) : b.callArbiter = b :=
  Bay.callArbiter_of_busy (Bool.eq_false_iff.2 (mt b.busFree_iff.1 h))

theorem Bay.idle_iff (b : Bay) : b.idle = true ↔ b.queue = [] := List.isEmpty_iff

theorem Bay.lanesClosed_iff (b : Bay) : b.lanesClosed = true ↔ ∀ l : LaneId, b.lanes[l].state = .closed := by
  simp [Bay.lanesClosed]

theorem Bay.allClosed_iff (b : Bay) : (b.lanesClosed && b.exchange.isNone) = true ↔ b.AllClosed := by
  rw [Bool.and_eq_true, Bay.lanesClosed_iff, Option.isNone_iff_eq_none, and_comm]
  rfl

theorem Bay.releaseAll_lanesReleased (b : Bay) : b.LanesReleased b.releaseAll.lanes := fun l => by
  refine (tabulate_get 4 _ l).trans ?_
  simp

/-- The lanes that a release-all leaves are determined by the lanes it finds. -/
theorem Bay.LanesReleased.eq {b : Bay} {lanes : Vector Lane 4} (h : b.LanesReleased lanes) : lanes = b.releaseAll.lanes := by
  refine Vector.ext fun i hi => ?_
  exact (h ⟨i, hi⟩).trans (b.releaseAll_lanesReleased ⟨i, hi⟩).symm

/-! ### The end of a drain (R117) -/

/-- What a bay in service holds between two events beside its bus: its outputs, no bay timer and no cause. -/
structure Bay.InService (b : Bay) : Prop where
  outputs : b.OutputsSound
  state : b.state.inService = true
  timer : b.timer = none
  cause : b.cause = .none

theorem Bay.Sound.inService {b : Bay} (h : b.Sound) (hs : b.state.inService = true) (ht : b.state.timed = false) : b.InService where
  outputs := h.1
  state := hs
  timer := by
    obtain ⟨-, ⟨-, -, htimer, -⟩, -⟩ := h
    rw [ht] at htimer
    exact Option.isNone_iff_eq_none.1 (Option.isSome_eq_false_iff.1 htimer)
  cause := h.cause_eq_none (BayState.of_inService hs).2.2.1

/-- The entry into UNPOWERED from a state in service: the rails go off, and with them the rail-good; nothing that service held is left. -/
theorem Bay.InService.enter_unpowered {b : Bay} (h : b.InService) (hd : b.depth = none) : b.enter .unpowered = { b with
    state := .unpowered, mainRail := false, auxRail := false, moduleReset := true, railGood := false
    identity := none, pollTimer := none, owed := 0, forced := false, due := false } := by
  obtain ⟨⟨hmain, -, -⟩, hs, htimer, hcause⟩ := h
  obtain ⟨hpowered, -, -, hid⟩ := BayState.of_inService hs
  rw [hpowered] at hmain
  simp [Bay.enter, BayState.powered, BayState.inReset, BayState.inService, BayState.arbitrates, BayState.hasDepth, hmain, hid, htimer, hcause, hd]

/-- The end of an event at a DRAINING bay (R80, R117). -/
theorem Bay.InService.drains {b : Bay} (h : b.InService) (hs : b.state = .draining) (hd : b.depth = none) : b.Drains b.drainSettle := by
  refine ⟨fun hq => ?_, fun hq hall => ?_, fun hq hall => ⟨b.releaseAll.lanes, b.releaseAll_lanesReleased, fun hl => ?_, fun hl => ?_⟩⟩
  · simp [Bay.drainSettle, Bay.idle, hq]
  all_goals rw [Bay.drainSettle, if_pos (by simp [hs, Bay.idle, hq])]
  · rw [if_pos (b.allClosed_iff.2 hall), h.enter_unpowered hd]
  · rw [if_neg (mt b.allClosed_iff.1 hall), Bay.drainRelease, if_pos hl]
  · rw [if_neg (mt b.allClosed_iff.1 hall), Bay.drainRelease, if_neg hl]
    rfl

theorem Bay.drainSettle_of_not_draining {b : Bay} (h : b.state ≠ .draining) : b.drainSettle = b := by
  simp [Bay.drainSettle, h]

/-! ### The end of a park, and the wake (R133 to R135) -/

/-- What a bay at the end of its park holds: nothing on its bus, a depth, and an identity record. -/
structure Bay.Dormant (b : Bay) : Prop extends b.InService where
  park : b.state.hasDepth = true
  exchange : b.exchange = none
  unit : b.unit = none
  depth : b.depth.isSome = true
  identity : b.identity.isSome = true

/-- The length of the wake is the one that the depth and the identity record fix. -/
theorem Bay.Dormant.wakeTime_eq {b : Bay} (h : b.Dormant) {n : Nat} (hlight : b.depth = some .light → n = 5)
    (hdeep : b.depth = some .deep → ∀ id, b.identity = some id → n = idDeepWake id) : b.wakeTime = n := by
  obtain ⟨d, hd⟩ := Option.isSome_iff_exists.1 h.depth
  obtain ⟨id, hid⟩ := Option.isSome_iff_exists.1 h.identity
  cases d with
  | light => rw [hlight hd, Bay.wakeTime_of_light hd]
  | deep => rw [hdeep hd id hid, Bay.wakeTime_of_deep hd hid]

theorem Bay.InService.startWake_of_ne_zero {b : Bay} (h : b.InService) (hn : b.wakeTime ≠ 0) :
    b.startWake = { b with state := .waking, forced := false, due := false, timer := some b.wakeTime } := by
  rw [Bay.startWake_eq, if_neg (mt eq_of_beq hn), Bay.enter_of_inService h.outputs h.state rfl]
  simp [BayState.hasDepth, BayState.arbitrates, h.cause]

/-- A wake of 0 takes the bay to ONLINE, with its bus free and a decision point due. -/
theorem Bay.InService.enter_online {b : Bay} (h : b.InService) :
    ({ (b.enter .waking).enter .online with timeouts := 0 } : Bay) = { b with state := .online, depth := none, timeouts := 0, forced := false, due := false } := by
  obtain ⟨hmain, hreset, haux⟩ := h.outputs
  obtain ⟨hpowered, hunreset, -⟩ := BayState.of_inService h.state
  have hout : (b.enter .waking).OutputsSound := by
    rw [Bay.enter_of_inService h.outputs h.state rfl]
    exact ⟨hmain.trans hpowered, hreset.trans hunreset, haux⟩
  rw [Bay.enter_of_inService hout rfl rfl, Bay.enter_of_inService h.outputs h.state rfl]
  simp [BayState.hasDepth, BayState.arbitrates, h.timer, h.cause]

theorem Bay.Dormant.startWake_of_eq_zero {b : Bay} (h : b.Dormant) (hn : b.wakeTime = 0) (hd : b.drainRequested = false) :
    b.startWake = { b with state := .online, depth := none, timeouts := 0, forced := false, due := true } := by
  rw [Bay.startWake_eq, if_pos (beq_iff_eq.2 hn), Bay.wakeEnds, h.enter_online]
  simp only [hd, Bool.false_eq_true, if_false]
  exact Bay.callArbiter_of_busFree ⟨.inl rfl, h.exchange, h.unit⟩

/-- A wake of 0 with a drain requested takes the bay on to DRAINING. -/
theorem Bay.Dormant.startWake_of_drain {b : Bay} (h : b.Dormant) (hn : b.wakeTime = 0) (hd : b.drainRequested = true) :
    b.startWake = { b with state := .draining, depth := none, timeouts := 0, forced := false, due := true, drainRequested := false } := by
  have hout : Bay.OutputsSound { b with state := .online, depth := none, timeouts := 0, forced := false, due := false } := by
    obtain ⟨hmain, hreset, haux⟩ := h.outputs
    obtain ⟨hpowered, hunreset, -⟩ := BayState.of_inService h.state
    exact ⟨hmain.trans hpowered, hreset.trans hunreset, haux⟩
  rw [Bay.startWake_eq, if_pos (beq_iff_eq.2 hn), Bay.wakeEnds, h.enter_online]
  refine (congrArg Bay.callArbiter (if_pos hd)).trans ?_
  rw [Bay.enter_of_inService hout rfl rfl]
  refine (Bay.callArbiter_of_busFree ?_).trans ?_
  · exact ⟨.inr (.inr rfl), h.exchange, h.unit⟩
  simp [BayState.hasDepth, BayState.arbitrates, h.timer, h.cause]

/-- The wake of a bay at the end of its park, and of a drain that follows it at once, its own end (R116, R134, R135). -/
theorem Bay.Dormant.wakes {b : Bay} (h : b.Dormant) : b.Wakes b.startWake.drainSettle := by
  intro n hlight hdeep
  obtain rfl := h.wakeTime_eq hlight hdeep
  refine ⟨fun hn => ?_, fun hn hd => ?_, fun hn hd => ?_⟩
  · rw [h.startWake_of_ne_zero hn]
    exact Bay.drainSettle_of_not_draining nofun
  · rw [h.startWake_of_eq_zero hn hd]
    exact Bay.drainSettle_of_not_draining nofun
  · rw [h.startWake_of_drain hn hd]
    obtain ⟨hmain, hreset, haux⟩ := h.outputs
    obtain ⟨hpowered, hunreset, -⟩ := BayState.of_inService h.state
    exact Bay.InService.drains ⟨⟨hmain.trans hpowered, hreset.trans hunreset, haux⟩, rfl, h.timer, h.cause⟩ rfl rfl

/-- With no drain requested a wake needs no end of its own. -/
theorem Bay.Dormant.startWake_wakes {b : Bay} (h : b.Dormant) (hd : b.drainRequested = false) : b.Wakes b.startWake := by
  have hsettled : b.startWake.drainSettle = b.startWake := by
    refine Bay.drainSettle_of_not_draining ?_
    by_cases hn : b.wakeTime = 0
    · rw [h.startWake_of_eq_zero hn hd]; nofun
    · rw [h.startWake_of_ne_zero hn]; nofun
  exact hsettled ▸ h.wakes

theorem Bay.parkOver_iff (b : Bay) (hd : b.depth.isSome = true) : (b.exchange.isNone && b.parkLanesDone) = true ↔ b.ParkOver := by
  obtain ⟨d, hd⟩ := Option.isSome_iff_exists.1 hd
  cases d with
  | light => simp [Bay.ParkOver, Bay.LightParkOver, Bay.parkLanesDone, hd]
  | deep => simp [Bay.ParkOver, Bay.AllClosed, Bay.parkLanesDone, hd, Bay.lanesClosed_iff]

/-- A PARKING bay whose park is over holds nothing on its bus, and would be PARKED with its arbiter at rest. -/
theorem Bay.enter_parked_of_parking {b : Bay} (hout : b.OutputsSound) (hhold : b.HoldingsSound) (hs : b.state = .parking) :
    b.enter .parked = { b with state := .parked, forced := false, due := false } := by
  obtain ⟨-, -, htimer, -, hcause, -⟩ := hhold
  rw [hs] at htimer hcause
  rw [Bay.enter_of_inService hout (by rw [hs]; rfl) rfl]
  have hcause' : b.cause = .none := Classical.not_not.1 (mt hcause.1 (by decide))
  have htimer' : b.timer = none := Option.isNone_iff_eq_none.1 (Option.isSome_eq_false_iff.1 htimer)
  simp [BayState.hasDepth, BayState.arbitrates, htimer', hcause']

theorem Bay.dormant_of_parked {b : Bay} (hout : b.OutputsSound) (hhold : b.HoldingsSound) (hs : b.state = .parked) (hx : b.exchange = none)
    (hu : b.unit = none) : b.Dormant := by
  obtain ⟨hid, -, htimer, hdepth, hcause, -⟩ := hhold
  rw [hs] at hid htimer hdepth hcause
  exact { outputs := hout, state := by rw [hs]; rfl, timer := Option.isNone_iff_eq_none.1 (Option.isSome_eq_false_iff.1 htimer)
          cause := Classical.not_not.1 (mt hcause.1 (by decide)), park := by rw [hs]; rfl, exchange := hx, unit := hu, depth := hdepth, identity := hid }

/-- A bay whose park is over, PARKED, is dormant. -/
theorem Bay.dormant_of_parkOver {b : Bay} (hout : b.OutputsSound) (hhold : b.HoldingsSound) (hs : b.state = .parking) (hu : b.unit = none)
    (ho : b.ParkOver) : Bay.Dormant { b with state := .parked, forced := false, due := false } := by
  have hx : b.exchange = none := by rcases ho with ⟨-, h, -⟩ | ⟨-, h, -⟩ <;> exact h
  obtain ⟨hmain, hreset, haux⟩ := hout
  obtain ⟨hid, hpoll, htimer, hdepth, hcause, hdrain, hline, hgood⟩ := hhold
  rw [hs] at hmain hreset hid hpoll htimer hdepth hcause
  refine Bay.dormant_of_parked ⟨hmain, hreset, haux⟩ ⟨hid, hpoll, htimer, hdepth, ?_, fun _ => rfl, nofun, nofun⟩ rfl hx hu
  exact ⟨fun h => absurd (hcause.1 h) (by decide), nofun⟩

/-- What a bay does by itself at the end of an event (R117, R133, R134). -/
theorem Bay.settle_settles {b : Bay} (hout : b.OutputsSound) (hhold : b.HoldingsSound) (hunit : b.state = .parking → b.unit = none) : b.Settles b.settle := by
  have hparking (hs : b.state = .parking) (ho : b.ParkOver) : b.parkSettle = Bay.wakeCheck { b with state := .parked, forced := false, due := false } := by
    have hdepth : b.depth.isSome = true := by obtain ⟨-, -, -, hdepth, -⟩ := hhold; rw [hdepth, hs]; rfl
    rw [Bay.parkSettle, if_pos (by rw [Bool.and_assoc, (b.parkOver_iff hdepth).2 ho, hs]; rfl), Bay.enter_parked_of_parking hout hhold hs]
  refine ⟨Bay.settle_of_not_ending, fun hs => ?draining, fun hs ho => ?going, fun hs ho hq howed hd => ?parked, fun hs ho hcauses => ?wakes⟩
  case draining =>
    have hpark : b.parkSettle = b := by simp [Bay.parkSettle, hs]
    obtain ⟨-, -, htimer, hdepth, hcause, -⟩ := hhold
    rw [hs] at htimer hdepth hcause
    rw [Bay.settle, hpark]
    exact Bay.InService.drains ⟨hout, by rw [hs]; rfl, Option.isNone_iff_eq_none.1 (Option.isSome_eq_false_iff.1 htimer),
      Classical.not_not.1 (mt hcause.1 (by decide))⟩ hs (Option.isNone_iff_eq_none.1 (Option.isSome_eq_false_iff.1 hdepth))
  case going =>
    have hdepth : b.depth.isSome = true := by obtain ⟨-, -, -, hdepth, -⟩ := hhold; rw [hdepth, hs]; rfl
    have hpark : b.parkSettle = b := by rw [Bay.parkSettle, if_neg (by rw [Bool.and_assoc, Bool.and_eq_true, b.parkOver_iff hdepth]; exact fun h => ho h.2)]
    rw [Bay.settle, hpark, Bay.drainSettle_of_not_draining (by rw [hs]; decide)]
  case parked =>
    rw [Bay.settle, hparking hs ho]
    simp [Bay.wakeCheck, hq, howed, hd, Config.owedMax, Bay.drainSettle]
  case wakes =>
    have hcause : (!b.queue.isEmpty || b.owed == Config.owedMax || b.drainRequested) = true := by
      rcases hcauses with h | h | h <;> simp [h, Config.owedMax]
    rw [Bay.settle, hparking hs ho, Bay.wakeCheck, if_pos (by simpa using hcause)]
    exact (Bay.dormant_of_parkOver hout hhold hs (hunit hs) ho).wakes

/-! ### Arrivals in a bay queue (R42, R82, R134) -/

theorem Bay.enqueue_eq (e : EntryId) (b : Bay) :
    b.enqueue e = Bay.wakeCheck (if b.queue.isEmpty then { b with queue := b.queue ++ [e] }.callArbiter else { b with queue := b.queue ++ [e] }) := rfl

theorem Bay.wakeCheck_of_not_parked {b : Bay} (h : b.state ≠ .parked) : b.wakeCheck = b := by
  simp [Bay.wakeCheck, h]

theorem Bay.enqueue_of_waiting {b : Bay} (e : EntryId) (hs : b.state ≠ .parked) (hq : b.queue ≠ []) : b.enqueue e = { b with queue := b.queue ++ [e] } := by
  rw [Bay.enqueue_eq, if_neg (by simpa using hq)]
  exact Bay.wakeCheck_of_not_parked hs

theorem Bay.enqueue_of_free {b : Bay} (e : EntryId) (hs : b.state ≠ .parked) (hq : b.queue = []) (hb : b.BusFree) :
    b.enqueue e = { b with queue := [e], due := true } := by
  rw [Bay.enqueue_eq, if_pos (by rw [hq]; rfl), Bay.callArbiter_of_busFree (b := { b with queue := b.queue ++ [e] }) hb, hq]
  exact Bay.wakeCheck_of_not_parked hs

theorem Bay.enqueue_of_busy {b : Bay} (e : EntryId) (hs : b.state ≠ .parked) (hb : ¬ b.BusFree) : b.enqueue e = { b with queue := b.queue ++ [e] } := by
  have hcall : Bay.callArbiter { b with queue := b.queue ++ [e] } = { b with queue := b.queue ++ [e] } := Bay.callArbiter_of_not_busFree hb
  rw [Bay.enqueue_eq, hcall, ite_self]
  exact Bay.wakeCheck_of_not_parked hs

/-- An entry that arrives at a sound PARKED bay starts its wake. -/
theorem Bay.enqueue_of_parked {b : Bay} (e : EntryId) (h : b.Sound) (hs : b.state = .parked) :
    Bay.Wakes { b with queue := b.queue ++ [e] } (b.enqueue e) := by
  obtain ⟨-, hexchange, hunit, -, -, -, hdrain⟩ := h.atRest hs
  obtain ⟨hout, hhold, -⟩ := h
  have hbusy : ¬ Bay.BusFree { b with queue := b.queue ++ [e] } := fun hb => absurd (hs ▸ hb.1) (by decide)
  rw [Bay.enqueue_eq, Bay.callArbiter_of_not_busFree hbusy, ite_self, Bay.wakeCheck, if_pos (by simp [hs])]
  exact (Bay.dormant_of_parked (b := { b with queue := b.queue ++ [e] }) hout hhold hs hexchange hunit).startWake_wakes hdrain

theorem Bay.receives_nil (b : Bay) : b.Receives [] b := ⟨fun _ => rfl, fun h => absurd rfl h, fun h => absurd rfl h, fun h => absurd rfl h⟩

/-- One more arrival. A PARKED bay has begun to wake at the first, and so is sound before it. -/
theorem Bay.Receives.enqueue {b v : Bay} {es : List EntryId} (h : b.Receives es v) (hsound : b.state = .parked → b.Sound) (e : EntryId) :
    b.Receives (es ++ [e]) (v.enqueue e) := by
  obtain ⟨hnone, hfree, hbusy, hparked⟩ := h
  refine ⟨fun h => absurd h (by simp), fun _ hs hq hb => ?free, fun _ hs hb => ?busy, fun _ hs => ?parked⟩
  case free =>
    by_cases hes : es = []
    · subst hes
      rw [hnone rfl]
      exact Bay.enqueue_of_free e hs hq hb
    · rw [hfree hes hs hq hb]
      exact Bay.enqueue_of_waiting e hs hes
  case busy =>
    by_cases hes : es = []
    · subst hes
      rw [hnone rfl]
      rcases hb with hq | hb
      · exact Bay.enqueue_of_waiting e hs hq
      · exact Bay.enqueue_of_busy e hs hb
    · rw [hbusy hes hs hb, Bay.enqueue_of_waiting (b := { b with queue := b.queue ++ es }) e hs (by simp [hes])]
      simp only [List.append_assoc]
  case parked =>
    by_cases hes : es = []
    · subst hes
      rw [hnone rfl]
      exact Bay.enqueue_of_parked e (hsound hs) hs
    · have hdrain := ((hsound hs).atRest hs).drainRequested
      intro n hlight hdeep
      obtain ⟨hne, hzero, -⟩ := hparked hes hs n hlight hdeep
      refine ⟨fun hn => ?_, fun hn hd => ?_, fun hn hd => absurd (hdrain.symm.trans hd) (by decide)⟩
      · rw [hne hn]
        refine (Bay.enqueue_of_waiting e ?_ (by simp [hes])).trans ?_
        · nofun
        · simp only [List.append_assoc]
      · rw [hzero hn hdrain]
        refine (Bay.enqueue_of_waiting e ?_ (by simp [hes])).trans ?_
        · nofun
        · simp only [List.append_assoc]

end Sys2Proof.Machine

/-! An admitted data request (3.3 to 3.5): its translation copy, its posted response, the hold decision, and what its arrival makes of its bay. -/

namespace Sys2Proof.Machine

/-! ### The entry that a service takes (R30, R44) -/

theorem State.entry_free_of_nextTaken {s : State} {t : Taken} (h : s.nextTaken = some t) : s.tracker.entries[t.entry].state = .free := by
  obtain ⟨hentry, -⟩ := (s.nextTaken_eq_some_iff t).1 h
  exact ((s.tracker.lowestFree_eq_some_iff t.entry).1 hentry).1

theorem Tracker.Listed.not_mem_of_free {t : Tracker} (h : t.Listed) {e : EntryId} (he : t.entries[e].state = .free) : e ∉ t.taken := fun hm => h.2.1 e hm he

theorem takeWhile_append_self {l : List EntryId} {e : EntryId} (h : e ∉ l) : (l ++ [e]).takeWhile (· != e) = l := by
  rw [List.takeWhile_append_of_pos fun x hx => by simpa using fun hxe : x = e => h (hxe ▸ hx)]
  simp

/-! ### The hold decision (R51) -/

/-- The conditions of the hold decision on entry `e` with translation copy `x`. -/
def Tracker.holds (t : Tracker) (e : EntryId) (x : Translation) : Bool := t.strictHold e x || t.earlierHeld e x.bay

theorem State.placeAdmitted_of_holds {s : State} {e : EntryId} {x : Translation} (h : s.tracker.holds e x = true) :
    s.placeAdmitted e x = s.mapEntry e fun y => { y with state := .held } := if_pos h

theorem State.placeAdmitted_of_not_holds {s : State} {e : EntryId} {x : Translation} (h : ¬ s.tracker.holds e x = true) :
    s.placeAdmitted e x = s.place e x.bay := if_neg h

theorem State.placeAdmitted_tracker (s : State) (e : EntryId) (x : Translation) :
    (s.placeAdmitted e x).tracker = (s.mapEntry e fun y => { y with state := if s.tracker.holds e x then .held else .queued }).tracker := by
  by_cases h : s.tracker.holds e x = true
  · rw [State.placeAdmitted_of_holds h, if_pos h]
  · rw [State.placeAdmitted_of_not_holds h, if_neg h]; rfl

theorem State.placeAdmitted_bays (s : State) (e : EntryId) (x : Translation) :
    (s.placeAdmitted e x).bays = if s.tracker.holds e x then s.bays else s.bays.set x.bay (s.bays[x.bay].enqueue e) := by
  by_cases h : s.tracker.holds e x = true
  · rw [State.placeAdmitted_of_holds h, if_pos h]; rfl
  · rw [State.placeAdmitted_of_not_holds h, if_neg h]; rfl

/-- Placing reaches the entry and its bay alone. -/
theorem State.placeAdmitted_others (s : State) (e : EntryId) (x : Translation) :
    (s.placeAdmitted e x).uplink = s.uplink ∧ (s.placeAdmitted e x).tables = s.tables ∧ (s.placeAdmitted e x).events = s.events
      ∧ (s.placeAdmitted e x).capture = s.capture ∧ (s.placeAdmitted e x).pending = s.pending := by
  unfold State.placeAdmitted
  split <;> exact ⟨rfl, rfl, rfl, rfl, rfl⟩

/-! ### The posted response (R47) -/

/-- An entry after its posted response has been made ready, where it is posted. -/
def Entry.withPostedResponse (y : Entry) (n : Nat) : Entry :=
  if y.posted then { y with response := some y.postedResponse, seq := some n } else y

theorem State.readyPosted_entry (s : State) (e : EntryId) :
    (s.readyPosted e).tracker.entries[e] = s.tracker.entries[e].withPostedResponse s.tracker.nextSeq := by
  unfold State.readyPosted Entry.withPostedResponse
  split
  · rw [State.makeReady_same]
  · rfl

theorem State.readyPosted_other {s : State} {e e' : EntryId} (h : e' ≠ e) : (s.readyPosted e).tracker.entries[e'] = s.tracker.entries[e'] := by
  unfold State.readyPosted
  split
  · exact State.makeReady_other h _ s
  · rfl

theorem State.readyPosted_order (s : State) (e : EntryId) :
    (s.readyPosted e).tracker.order = if s.tracker.entries[e].posted then s.tracker.order ++ [e] else s.tracker.order := by
  unfold State.readyPosted
  split <;> rfl

/-- Making the posted response ready reaches the entry and the response order alone. -/
theorem State.readyPosted_others (s : State) (e : EntryId) :
    (s.readyPosted e).tracker.taken = s.tracker.taken ∧ (s.readyPosted e).tracker.postedFault = s.tracker.postedFault
      ∧ (s.readyPosted e).bays = s.bays ∧ (s.readyPosted e).uplink = s.uplink ∧ (s.readyPosted e).tables = s.tables
      ∧ (s.readyPosted e).events = s.events ∧ (s.readyPosted e).capture = s.capture ∧ (s.readyPosted e).pending = s.pending := by
  unfold State.readyPosted
  split <;> exact ⟨rfl, rfl, rfl, rfl, rfl, rfl, rfl, rfl⟩

/-! ### An admitted data request (R12, R37, R46) -/

/-- The part with the translation copy and the posted response in place, before the hold decision. -/
def State.admitting (s : State) (t : Taken) (i : Fin 32) : State := (s.writeTranslation t i).readyPosted t.entry

theorem State.admitData_eq (s : State) (t : Taken) (i : Fin 32) :
    s.admitData t i = (s.admitting t i).placeAdmitted t.entry (translation t.request i s.tables.apertures[i]) := rfl

theorem State.admitting_entry (s : State) (t : Taken) (i : Fin 32) :
    ((s.takeRequest t).admitting t i).tracker.entries[t.entry] =
      ({ Entry.ofRequest t.request with xlat := some (translation t.request i s.tables.apertures[i]), posted := postedThrough t.request s.tables.apertures[i] } : Entry).withPostedResponse
        s.tracker.nextSeq := by
  rw [State.admitting, State.readyPosted_entry, State.writeTranslation, State.mapEntry_same, State.takeRequest_entry]
  rfl

theorem State.admitting_other {s : State} {t : Taken} (i : Fin 32) {e : EntryId} (h : e ≠ t.entry) :
    ((s.takeRequest t).admitting t i).tracker.entries[e] = s.tracker.entries[e] := by
  rw [State.admitting, State.readyPosted_other h, State.writeTranslation, State.mapEntry_other h, State.takeRequest_other t s e h]

theorem State.admitting_taken (s : State) (t : Taken) (i : Fin 32) : ((s.takeRequest t).admitting t i).tracker.taken = s.tracker.taken ++ [t.entry] :=
  (State.readyPosted_others _ _).1

theorem State.admitting_posted (s : State) (t : Taken) (i : Fin 32) :
    ((s.takeRequest t).admitting t i).tracker.entries[t.entry].posted = postedThrough t.request s.tables.apertures[i] := by
  rw [State.admitting_entry, Entry.withPostedResponse]
  split <;> rfl

theorem State.admitting_domain (s : State) (t : Taken) (i : Fin 32) :
    ((s.takeRequest t).admitting t i).tracker.entries[t.entry].domain = t.request.domain := by
  rw [State.admitting_entry, Entry.withPostedResponse]
  split <;> rfl

/-- The entry of an admitted data request, with the state that the hold decision has given it. -/
theorem State.admitData_entry (s : State) (t : Taken) (i : Fin 32) :
    ((s.takeRequest t).admitData t i).tracker.entries[t.entry] = { ((s.takeRequest t).admitting t i).tracker.entries[t.entry] with
      state := if ((s.takeRequest t).admitting t i).tracker.holds t.entry (translation t.request i s.tables.apertures[i]) then .held else .queued } := by
  rw [State.admitData_eq, State.placeAdmitted_tracker, State.mapEntry_same]
  rfl

theorem State.admitData_served (s : State) (t : Taken) (i : Fin 32) : s.Served t ((s.takeRequest t).admitData t i) := by
  obtain ⟨hplaced_uplink, hplaced_tables, -, -, hplaced_pending⟩ :=
    ((s.takeRequest t).admitting t i).placeAdmitted_others t.entry (translation t.request i (s.takeRequest t).tables.apertures[i])
  obtain ⟨-, hfault, -, huplink, htables, -, -, hpending⟩ := ((s.takeRequest t).writeTranslation t i).readyPosted_others t.entry
  have hentry : ∃ st, ((s.takeRequest t).admitData t i).tracker.entries[t.entry] =
      { ((s.takeRequest t).admitting t i).tracker.entries[t.entry] with state := st } := ⟨_, s.admitData_entry t i⟩
  have hidentity : ((s.takeRequest t).admitting t i).tracker.entries[t.entry].tag = t.request.tag
      ∧ ((s.takeRequest t).admitting t i).tracker.entries[t.entry].kind = t.request.kind := by
    rw [State.admitting_entry, Entry.withPostedResponse]
    split <;> exact ⟨rfl, rfl⟩
  refine { uplink := hplaced_uplink.trans huplink, lastServed := congrArg AdmissionUnit.lastServed (hplaced_tables.trans htables), taken := ?_, identity := ?_,
           others := fun e he _ _ => ?_, postedFault := fun d _ => ?_, pending := hplaced_pending.trans hpending }
  · rw [State.admitData_eq, State.placeAdmitted_tracker]
    exact s.admitting_taken t i
  · obtain ⟨st, hst⟩ := hentry
    rw [hst]
    exact ⟨s.admitting_domain t i, hidentity⟩
  · rw [State.admitData_eq, State.placeAdmitted_tracker, State.mapEntry_other he, State.admitting_other i he]
  · rw [State.admitData_eq, State.placeAdmitted_tracker, State.mapEntry_tracker_postedFault, State.admitting, hfault]
    rfl

theorem filter_ne_nil_iff {p : EntryId → Bool} {l : List EntryId} : l.filter p ≠ [] ↔ ∃ x ∈ l, p x = true := by
  rw [Ne, List.filter_eq_nil_iff]
  exact ⟨fun h => Decidable.byContradiction fun hn => h fun x hx hp => hn ⟨x, hx, hp⟩, fun ⟨x, hx, hp⟩ h => h x hx hp⟩

/-- The hold decision in terms of the part before the service: the posted set and the hold list of the request's domain (R51). -/
theorem State.admitting_holds_iff {s : State} {t : Taken} {i : Fin 32} (hfree : s.tracker.entries[t.entry].state = .free) (hl : s.tracker.Listed) :
    ((s.takeRequest t).admitting t i).tracker.holds t.entry (translation t.request i s.tables.apertures[i]) = true ↔
      (postedThrough t.request s.tables.apertures[i] = false ∧ s.tables.apertures[i].ordering = .strict ∧ s.tracker.postedSet t.request.domain ≠ [])
        ∨ s.tracker.holdList t.request.domain s.tables.apertures[i].bay ≠ [] := by
  have hnew : t.entry ∉ s.tracker.taken := hl.not_mem_of_free hfree
  have hbefore : ((s.takeRequest t).admitting t i).tracker.before t.entry = s.tracker.taken := by
    rw [Tracker.before, State.admitting_taken, takeWhile_append_self hnew]
  have hany (p : Entry → Bool) : (s.tracker.taken.any fun x => p ((s.takeRequest t).admitting t i).tracker.entries[x]) = true ↔
      (s.tracker.taken.filter fun x => p s.tracker.entries[x]) ≠ [] := by
    rw [List.any_eq_true, filter_ne_nil_iff]
    refine exists_congr fun x => and_congr_right fun hx => ?_
    rw [State.admitting_other i fun hxe => hnew (hxe ▸ hx)]
  have hposted : ((s.takeRequest t).admitting t i).tracker.earlierPosted t.entry = true ↔ s.tracker.postedSet t.request.domain ≠ [] := by
    rw [Tracker.earlierPosted, hbefore, State.admitting_domain]
    exact hany fun y => y.domain == t.request.domain && y.postedOpen
  have hheld : ((s.takeRequest t).admitting t i).tracker.earlierHeld t.entry s.tables.apertures[i].bay = true ↔
      s.tracker.holdList t.request.domain s.tables.apertures[i].bay ≠ [] := by
    rw [Tracker.earlierHeld, hbefore, State.admitting_domain]
    exact hany fun y => y.heldFor t.request.domain s.tables.apertures[i].bay
  unfold Tracker.holds Tracker.strictHold
  rw [State.admitting_posted]
  show (_ || ((s.takeRequest t).admitting t i).tracker.earlierHeld t.entry s.tables.apertures[i].bay) = true ↔ _
  simp only [Bool.or_eq_true, Bool.and_eq_true, Bool.not_eq_true', beq_iff_eq, hposted, hheld, and_assoc]
  rfl

/-- What an admitted data request leaves of the other blocks. -/
theorem State.admitData_others (s : State) (t : Taken) (i : Fin 32) :
    ((s.takeRequest t).admitData t i).tracker.postedFault = s.tracker.postedFault ∧ s.TablesKept ((s.takeRequest t).admitData t i)
      ∧ ((s.takeRequest t).admitData t i).events = s.events ∧ ((s.takeRequest t).admitData t i).capture = s.capture := by
  obtain ⟨-, hplaced_tables, hplaced_events, hplaced_capture, -⟩ :=
    ((s.takeRequest t).admitting t i).placeAdmitted_others t.entry (translation t.request i (s.takeRequest t).tables.apertures[i])
  obtain ⟨-, hfault, -, -, htables, hevents, hcapture, -⟩ := ((s.takeRequest t).writeTranslation t i).readyPosted_others t.entry
  refine ⟨?_, ?_, hplaced_events.trans hevents, hplaced_capture.trans hcapture⟩
  · rw [State.admitData_eq, State.placeAdmitted_tracker, State.mapEntry_tracker_postedFault, State.admitting, hfault]
    rfl
  · have htables' : ((s.takeRequest t).admitData t i).tables = (s.takeRequest t).tables := hplaced_tables.trans htables
    unfold State.TablesKept
    rw [htables']
    exact s.takeRequest_tablesKept t

theorem State.admitData_order (s : State) (t : Taken) (i : Fin 32) :
    ((s.takeRequest t).admitData t i).tracker.order =
      if postedThrough t.request s.tables.apertures[i] then s.tracker.order ++ [t.entry] else s.tracker.order := by
  rw [State.admitData_eq, State.placeAdmitted_tracker, State.mapEntry_tracker_order, State.admitting, State.readyPosted_order, State.writeTranslation,
    State.mapEntry_same]
  rfl

theorem State.admitData_bays (s : State) (t : Taken) (i : Fin 32) :
    ((s.takeRequest t).admitData t i).bays =
      if ((s.takeRequest t).admitting t i).tracker.holds t.entry (translation t.request i s.tables.apertures[i]) then s.bays
      else s.bays.set s.tables.apertures[i].bay (s.bays[s.tables.apertures[i].bay].enqueue t.entry) := by
  rw [State.admitData_eq, State.placeAdmitted_bays]
  obtain ⟨-, -, hbays, -⟩ := ((s.takeRequest t).writeTranslation t i).readyPosted_others t.entry
  have hbays' : ((s.takeRequest t).admitting t i).bays = s.bays := hbays
  rw [hbays']
  rfl

/-! ### The arrival at the bay (R42, R82, R134) -/

theorem Bay.enqueue_receives {b : Bay} (hsound : b.state = .parked → b.Sound) (e : EntryId) : b.Receives [e] (b.enqueue e) :=
  b.receives_nil.enqueue hsound e

/-- A PARKED bay woken by an arrival is WAKING for 5 µs, for the deep wake time, or ONLINE at once. -/
theorem Bay.enqueue_of_parked_depth {b : Bay} (h : b.Sound) (hs : b.state = .parked) (e : EntryId) :
    (b.depth = some .light → b.enqueue e = { b with queue := b.queue ++ [e], state := .waking, timer := some 5 })
      ∧ ∀ id, b.identity = some id → b.depth = some .deep →
        (idDeepWake id ≠ 0 → b.enqueue e = { b with queue := b.queue ++ [e], state := .waking, timer := some (idDeepWake id) })
        ∧ (idDeepWake id = 0 → b.enqueue e = { b with queue := b.queue ++ [e], state := .online, depth := none, timeouts := 0, due := true }) := by
  have hwakes := Bay.enqueue_of_parked e h hs
  obtain ⟨-, -, -, hforced, hdue, -, hdrain⟩ := h.atRest hs
  refine ⟨fun hd => ?_, fun id hid hd => ⟨fun hn => ?_, fun hn => ?_⟩⟩
  · obtain ⟨hne, -, -⟩ := hwakes 5 (fun _ => rfl) fun h => absurd (hd.symm.trans h) (by decide)
    rw [hne (by decide), hforced, hdue]
  all_goals
    obtain ⟨hne, hzero, -⟩ := hwakes (idDeepWake id) (fun h => absurd (hd.symm.trans h) (by decide)) fun _ id' hid' => by
      rw [Option.some.inj (hid.symm.trans hid')]
  · rw [hne hn, hforced, hdue]
  · rw [hzero hn hdrain, hforced]

/-! ### The obligation -/

/-- An entry placed after its posted response: only its state, its response and its sequence are new. -/
theorem Entry.withPostedResponse_placed (y : Entry) (n : Nat) (st : EntryState) : ∃ r q, ({ y.withPostedResponse n with state := st } : Entry) = { y with state := st, response := r, seq := q }
    ∧ (y.posted = true → r = some y.postedResponse) ∧ (y.posted = false → r = y.response) := by
  unfold Entry.withPostedResponse
  split
  · next h => exact ⟨_, _, rfl, fun _ => rfl, fun h' => absurd (h.symm.trans h') (by decide)⟩
  · next h => exact ⟨_, _, rfl, fun h' => absurd h' h, fun _ => rfl⟩

/-- Settles O15: the entry is the request's with its translation copy, and the hold decision reads the entries taken before it. -/
theorem admittedDataRequestIsPlaced : Obligations.AdmittedDataRequestIsPlaced := by
  intro c s t i hcmd hn hc hcheck hl
  dsimp only
  have hexec : exec c s = .next ((s.takeRequest t).admitData t i) := by
    rw [(exec_admits hn hc).data_of_isData (commandServes_isData hcmd hc), State.admission, show (s.takeRequest t).checkData t.request = _ from hcheck]
  have hholds := State.admitting_holds_iff (i := i) (State.entry_free_of_nextTaken hn) hl
  obtain ⟨hfault, htables, hevents, hcapture⟩ := s.admitData_others t i
  obtain ⟨response, seq, hentry, hposted, hopen⟩ := Entry.withPostedResponse_placed
    { Entry.ofRequest t.request with xlat := some (translation t.request i s.tables.apertures[i]), posted := postedThrough t.request s.tables.apertures[i] } s.tracker.nextSeq
    (if ((s.takeRequest t).admitting t i).tracker.holds t.entry (translation t.request i s.tables.apertures[i]) then .held else .queued)
  rw [← State.admitting_entry, ← State.admitData_entry] at hentry
  refine ⟨_, hexec, s.admitData_served t i, ?entry, fun hheld => ?held, fun hfree => ?queued, hfault, htables, hevents, hcapture⟩
  case entry =>
    rw [hentry, State.admitData_order]
    refine ⟨rfl, rfl, rfl, rfl, rfl, rfl, rfl, rfl, fun hk => ?_, fun hk => ?_, fun hk => ?_, fun hheld => if_pos (hholds.2 hheld), fun hfree => if_neg (mt hholds.1 hfree),
      fun hp => ⟨hposted hp, if_pos hp⟩, fun hp => ⟨hopen hp, if_neg (by rw [show postedThrough _ _ = false from hp]; decide)⟩⟩
    · have hb : t.request.kind.isBlock = true := (ReqKind.isBlock_iff _).2 hk
      exact ⟨if_pos hb, if_pos hb⟩
    · show t.request.writeBuffer = _
      rcases hk with hk | hk <;> simp only [Request.writeBuffer, hk]
    · show t.request.operand = _
      rw [Request.operand, if_pos (beq_iff_eq.2 hk)]
  case held => rw [State.admitData_bays, if_pos (hholds.2 hheld)]
  case queued =>
    rw [State.admitData_bays, if_neg (mt hholds.1 hfree)]
    have hsame : (s.bays.set s.tables.apertures[i].bay (s.bays[s.tables.apertures[i].bay].enqueue t.entry))[s.tables.apertures[i].bay] =
        s.bays[s.tables.apertures[i].bay].enqueue t.entry := Vector.getElem_set_self _
    refine ⟨fun b hb => Vector.getElem_set_ne _ _ (fun h => hb (Fin.ext h.symm)), fun hs hq hb => ?_, fun hs hb => ?_, fun hs hsound => ?_⟩
    all_goals rw [hsame]
    · rw [Bay.enqueue_of_free t.entry hs hq hb, hq, List.nil_append]
    · rcases hb with hq | hb
      · exact Bay.enqueue_of_waiting t.entry hs hq
      · exact Bay.enqueue_of_busy t.entry hs hb
    · exact Bay.enqueue_of_parked_depth hsound hs t.entry

end Sys2Proof.Machine

/-! Rises, claims and messages (8.1, 8.5, 8.7): what setting a latch makes of the event unit, and the requests that take the highest item or set the latches of a channel. -/

namespace Sys2Proof.Machine

/-! ### A latch set, and its domain re-examined (R138, R139, R145) -/

/-- A re-examination of one domain, told from what the event unit held before it. -/
theorem State.examinedIn_reexamine (s : State) (d : DomainId) : s.events.ExaminedIn [d] (s.reexamine d) := s.examinedIn_reexamineAll [d]

theorem State.latch_tablesKept (it : Item) (s : State) : s.events.TablesKept (s.latch it).events :=
  ⟨s.latch_events_routes it, s.latch_events_descriptors it, s.latch_events_limit it⟩

theorem State.latch_examinedIn (it : Item) (s : State) : (s.events.setPending it true).ExaminedIn [s.events.routedTo it] (s.latch it) :=
  State.examinedIn_reexamine { s with events := s.events.setPending it true } _

theorem State.latch_reexamined (it : Item) (s : State) : (s.latch it).ReexaminedFrom (s.events.routedTo it) s.events.delivery[s.events.routedTo it] := by
  have h := (s.latch_examinedIn it).examined _ List.mem_cons_self
  rwa [EventUnit.setPending_delivery] at h

theorem State.latch_delivery_other {it : Item} {s : State} {d : DomainId} (h : d ≠ s.events.routedTo it) :
    (s.latch it).events.delivery[d] = s.events.delivery[d] := by
  have hd := (s.latch_examinedIn it).others d (by simpa using h)
  rwa [EventUnit.setPending_delivery] at hd

theorem EventUnit.routedTo_bay (u : EventUnit) (n : Fin 64) : u.routedTo (.bay n) = u.routes[(Item.bay n).source].destination := rfl

/-- Settles O18: a rise that is sensed is a latch set, and a latch set re-examines the domain it is routed to. -/
theorem riseIsLatchedWhileSensed : Obligations.RiseIsLatchedWhileSensed := by
  refine ⟨by decide, fun b k s => ⟨s.raise_off b k, fun hon n hn => ?_⟩⟩
  obtain rfl : n = baySource b k.index := Fin.ext hn
  dsimp only
  rw [s.raise_on b k hon]
  have hpending (it : Item) := s.latch_isPending (.bay (baySource b k.index)) it
  refine ⟨?_, fun it hit => ?_, fun it => State.latch_isActive .., s.latch_tablesKept _, fun d hd => ?_, fun d hd => ?_, State.latch_uplink .., State.latch_tables ..,
    State.latch_tracker .., State.latch_bays .., State.latch_capture .., State.latch_pending ..⟩
  · rw [hpending, if_pos rfl]
  · rw [hpending, if_neg hit]
  · subst hd
    exact s.latch_reexamined (.bay (baySource b k.index))
  · exact State.latch_delivery_other (it := .bay (baySource b k.index)) hd

/-! ### CLAIM (R148 to R150) -/

theorem State.highest_congr {s u : State} {d : DomainId} (h : ∀ it, u.deliverable d it = s.deliverable d it) (hr : u.events.routes = s.events.routes) :
    u.highest d = s.highest d := by
  have hbetter : u.better = s.better := by
    funext best it
    simp only [State.better, hr]
  unfold State.highest
  rw [hbetter, show u.deliverable d = s.deliverable d from funext h]

theorem State.clearSignal_deliverable (d d' : DomainId) (it : Item) (s : State) : (s.clearSignal d).deliverable d' it = s.deliverable d' it := by
  have hkept (f : Delivery → Delivery) (hth : ∀ y, (f y).threshold = y.threshold) (hl : ∀ y, (f y).inService = y.inService) :
      (s.mapDelivery d f).events.delivery[d'].threshold = s.events.delivery[d'].threshold
        ∧ (s.mapDelivery d f).events.delivery[d'].inService = s.events.delivery[d'].inService := by
    rw [State.mapDelivery_get]
    split
    · next h => rw [h, hth, hl]; exact ⟨rfl, rfl⟩
    · exact ⟨rfl, rfl⟩
  obtain ⟨hthreshold, hlist⟩ := hkept (fun y => { y with signal := false, notice := false }) (fun _ => rfl) fun _ => rfl
  exact State.deliverable_congr _ _ _ _ (State.mapDelivery_isPending ..) rfl hthreshold hlist (State.mapDelivery_isActive ..) rfl

theorem State.clearSignal_highest (d : DomainId) (s : State) : (s.clearSignal d).highest d = s.highest d :=
  State.highest_congr (fun it => s.clearSignal_deliverable d d it) rfl

/-- What a claim answers, and what it makes of the event unit and the capture before its domain is re-examined. -/
structure State.Claims (s : State) (t : Taken) (flags : Flags) (payload : List Word) (ev : EventUnit) (capture : Option CaptureRecord) (u : State) : Prop where
  served : s.Served t u
  answered : s.AnsweredWith t .ok flags 0 payload u
  tables : s.TablesKept u
  bays : u.bays = s.bays
  capture : u.capture = capture
  examined : ev.ExaminedIn [t.request.domain] u

/-- A claim's response is assembled from its flags and payload, and the re-examination leaves it as it is (R46, R148). -/
theorem State.claims_of_response {s v : State} {t : Taken} (hv : v = { s.takeRequest t with events := v.events, capture := v.capture })
    (hk : t.request.kind = .claim) (vec : Fin 256) (src p : Nat) (handler : Word) (f : Flags) (hf : f.carry = false) :
    s.Claims t f (claimPayload vec src p handler) v.events v.capture ((v.claimResponse t vec src p handler f).reexamine t.request.domain) := by
  have htracker : v.tracker = (s.takeRequest t).tracker := by rw [hv]
  have htables : v.tables = (s.takeRequest t).tables := by rw [hv]
  have hserved : s.Served t (v.claimResponse t vec src p handler f) :=
    State.served_finish (by rw [hv]) (by rw [htables]; rfl) htracker (by rw [hv]; rfl) fun _ => ⟨rfl, rfl, rfl⟩
  have hanswered : s.AnsweredWith t .ok f 0 (if t.request.kind.returnsBuffer then claimPayload vec src p handler else []) (v.claimResponse t vec src p handler f) :=
    State.answered_finish htracker (fun y => { y with flags := f, buffer := claimPayload vec src p handler }) rfl hf
  rw [hk] at hanswered
  have hexamined := (v.claimResponse t vec src p handler f).examinedIn_reexamine t.request.domain
  have hevents : (v.claimResponse t vec src p handler f).events = v.events := State.finish_events ..
  rw [hevents] at hexamined
  refine { served := hserved.congr (State.reexamine_uplink ..) (by rw [State.reexamine_tables]) (State.reexamine_tracker ..) (State.reexamine_pending ..),
           answered := hanswered.congr (State.reexamine_tracker ..), tables := ?_, bays := ?_, capture := ?_, examined := hexamined }
  · unfold State.TablesKept
    rw [State.reexamine_tables, State.claimResponse, State.finish_tables, htables]
    exact s.takeRequest_tablesKept t
  · rw [State.reexamine_bays, State.claimResponse, State.finish_bays, hv]; rfl
  · rw [State.reexamine_capture, State.claimResponse, State.finish_capture]

theorem exec_claim {s : State} {t : Taken} (hn : s.nextTaken = some t) (hk : t.request.kind = .claim) (he : s.tables.domains[t.request.domain].enabled = true) :
    exec .claim s = .next ((s.takeRequest t).claimEffect t) := congrArg _ (State.serveChecked_of State.claimEffect hn hk he)

theorem State.claimEffect_of_none {s : State} {t : Taken} (h : s.highest t.request.domain = none) :
    (s.takeRequest t).claimEffect t = State.reexamine t.request.domain (State.claimResponse t s.tables.domains[t.request.domain].spurious 0 0 0 { spurious := true }
      ((s.takeRequest t).clearSignal t.request.domain)) := by
  have hnone : ((s.takeRequest t).clearSignal t.request.domain).highest t.request.domain = none := ((s.takeRequest t).clearSignal_highest _).trans h
  unfold State.claimEffect
  dsimp only
  rw [hnone]
  rfl

theorem State.claimEffect_of_some {s : State} {t : Taken} {it : Item} (h : s.highest t.request.domain = some it) :
    (s.takeRequest t).claimEffect t = (((s.takeRequest t).clearSignal t.request.domain).claimItem t t.request.domain it).reexamine t.request.domain := by
  have hsome : ((s.takeRequest t).clearSignal t.request.domain).highest t.request.domain = some it := ((s.takeRequest t).clearSignal_highest _).trans h
  unfold State.claimEffect
  dsimp only
  rw [hsome]

/-- The event unit with the domain's signal cleared and the item's latch cleared (R148). -/
def State.claimedEvents (s : State) (d : DomainId) (it : Item) : EventUnit := (s.clearSignal d).events.setPending it false

theorem EventUnit.usable_iff (u : EventUnit) (v : Fin 256) : u.usable v = true ↔ v.val < u.limit ∧ u.descriptors[v].present = true := by
  rw [EventUnit.usable, Bool.and_eq_true, decide_eq_true_eq]

/-- A claim of item `it` by what its vector decides (R149, R150). -/
theorem State.claimItem_cases {s : State} {t : Taken} (hk : t.request.kind = .claim) (it : Item) :
    let d := t.request.domain
    let r := s.events.routes[it.source]
    let x := s.events.descriptors[r.vector]
    let u := (((s.takeRequest t).clearSignal d).claimItem t d it).reexamine d
    let payload := claimPayload r.vector it.source r.priority
    (s.events.usable r.vector = false → s.Claims t { defect := true } (payload 0) (s.claimedEvents d it)
        (s.offer { kind := .descriptorMissing, who := some (d, t.request.tag), bay := it.bay?, xlat := none }).capture u)
      ∧ (s.events.usable r.vector = true → x.kind = .tracked → s.Claims t {} (payload x.handler)
        (State.enterService d it r.priority r.vector { s with events := s.claimedEvents d it }).events s.capture u)
      ∧ (s.events.usable r.vector = true → x.kind = .untracked → s.Claims t { untracked := true } (payload x.handler) (s.claimedEvents d it) s.capture u) := by
  dsimp only
  let v : State := { (s.takeRequest t).clearSignal t.request.domain with events := s.claimedEvents t.request.domain it }
  have hroutes : ((s.takeRequest t).clearSignal t.request.domain).events.routes = s.events.routes := rfl
  have husable (n : Fin 256) : (s.claimedEvents t.request.domain it).usable n = s.events.usable n := by
    simp only [EventUnit.usable, State.claimedEvents, EventUnit.setPending_limit, EventUnit.setPending_descriptors]
    rfl
  have hdescriptors : (s.claimedEvents t.request.domain it).descriptors = s.events.descriptors := EventUnit.setPending_descriptors ..
  have hclaim : ((s.takeRequest t).clearSignal t.request.domain).claimItem t t.request.domain it =
      if (s.claimedEvents t.request.domain it).usable s.events.routes[it.source].vector then
        match (s.claimedEvents t.request.domain it).descriptors[s.events.routes[it.source].vector].kind with
        | .tracked => (v.enterService t.request.domain it s.events.routes[it.source].priority s.events.routes[it.source].vector).claimResponse t
            s.events.routes[it.source].vector it.source s.events.routes[it.source].priority
            (s.claimedEvents t.request.domain it).descriptors[s.events.routes[it.source].vector].handler {}
        | .untracked => v.claimResponse t s.events.routes[it.source].vector it.source s.events.routes[it.source].priority
            (s.claimedEvents t.request.domain it).descriptors[s.events.routes[it.source].vector].handler { untracked := true }
      else (v.offer { kind := .descriptorMissing, who := some (t.request.domain, t.request.tag), bay := it.bay?, xlat := none }).claimResponse t
        s.events.routes[it.source].vector it.source s.events.routes[it.source].priority 0 { defect := true } := rfl
  rw [hclaim, husable]
  simp only [hdescriptors]
  refine ⟨fun hu => ?_, fun hu hx => ?_, fun hu hx => ?_⟩
  · rw [hu]
    have hoffer : (v.offer { kind := .descriptorMissing, who := some (t.request.domain, t.request.tag), bay := it.bay?, xlat := none }).capture =
        (s.offer { kind := .descriptorMissing, who := some (t.request.domain, t.request.tag), bay := it.bay?, xlat := none }).capture := by
      unfold State.offer
      rw [show v.capture = s.capture from rfl]
      split <;> rfl
    have hv : v.offer { kind := .descriptorMissing, who := some (t.request.domain, t.request.tag), bay := it.bay?, xlat := none } =
        { s.takeRequest t with
          events := s.claimedEvents t.request.domain it
          capture := (s.offer { kind := .descriptorMissing, who := some (t.request.domain, t.request.tag), bay := it.bay?, xlat := none }).capture } := by
      rw [← hoffer]
      unfold State.offer
      split <;> rfl
    rw [hv]
    exact State.claims_of_response (v := { s.takeRequest t with events := s.claimedEvents t.request.domain it, capture := _ }) rfl hk _ _ _ _ { defect := true } rfl
  · rw [hu, hx]
    exact State.claims_of_response (v := v.enterService t.request.domain it s.events.routes[it.source].priority s.events.routes[it.source].vector) rfl hk _ _ _ _ _ rfl
  · rw [hu, hx]
    exact State.claims_of_response (v := v) rfl hk _ _ _ _ _ rfl

theorem claimPayload_head {vec : Fin 256} {src : Fin 68} {p : Fin 16} :
    (packFields [(vec, 0), (src, 8), (p, 16)]).toNat = vec.val + 2 ^ 8 * src.val + 2 ^ 16 * p.val := by
  rw [packFields_toNat]
  simp only [packSum_cons, packSum_nil]
  omega

theorem State.claimedEvents_isPending (s : State) (d : DomainId) (it o : Item) :
    (s.claimedEvents d it).isPending o = if o = it then false else s.events.isPending o := by
  rw [State.claimedEvents, EventUnit.isPending_setPending, State.clearSignal, State.mapDelivery_isPending]

theorem State.claimedEvents_isActive (s : State) (d : DomainId) (it o : Item) : (s.claimedEvents d it).isActive o = s.events.isActive o := by
  rw [State.claimedEvents, EventUnit.setPending_isActive, State.clearSignal, State.mapDelivery_isActive]

theorem State.claimedEvents_tablesKept (s : State) (d : DomainId) (it : Item) : s.events.TablesKept (s.claimedEvents d it) :=
  ⟨EventUnit.setPending_routes .., EventUnit.setPending_descriptors .., EventUnit.setPending_limit ..⟩

theorem State.claimedEvents_delivery (s : State) (d : DomainId) (it : Item) :
    (s.claimedEvents d it).delivery = s.events.delivery.set d { s.events.delivery[d] with signal := false, notice := false } := by
  rw [State.claimedEvents, EventUnit.setPending_delivery]
  rfl

/-- What every claim of an item leaves of the event unit, whatever its vector decides. -/
theorem State.Claims.events_kept {s u : State} {t : Taken} {f : Flags} {payload : List Word} {ev : EventUnit} {c : Option CaptureRecord} {it : Item}
    (h : s.Claims t f payload ev c u) (hp : ∀ o, ev.isPending o = (s.claimedEvents t.request.domain it).isPending o)
    (htables : (s.claimedEvents t.request.domain it).TablesKept ev)
    (hd : ∀ e, e ≠ t.request.domain → ev.delivery[e] = s.events.delivery[e]) :
    u.events.isPending it = false ∧ (∀ o, o ≠ it → u.events.isPending o = s.events.isPending o) ∧ s.events.TablesKept u.events
      ∧ ∀ e, e ≠ t.request.domain → u.events.delivery[e] = s.events.delivery[e] := by
  obtain ⟨hpending, -, htables', -, hothers⟩ := h.examined
  obtain ⟨hroutes, hdescriptors, hlimit⟩ := s.claimedEvents_tablesKept t.request.domain it
  refine ⟨?_, fun o ho => ?_, ⟨htables'.1.trans (htables.1.trans hroutes), htables'.2.1.trans (htables.2.1.trans hdescriptors),
    htables'.2.2.trans (htables.2.2.trans hlimit)⟩, fun e he => (hothers e (by simpa using he)).trans (hd e he)⟩
  · rw [hpending, hp, State.claimedEvents_isPending, if_pos rfl]
  · rw [hpending, hp, State.claimedEvents_isPending, if_neg ho]

/-- Settles O19: the highest item before the claim is the highest after the signal is cleared, and its vector decides among the three answers. -/
theorem claimTakesHighestItem : Obligations.ClaimTakesHighestItem := by
  intro s t hn hk he
  dsimp only
  refine ⟨fun hnone => ?none, fun it hit => ?some⟩
  case none =>
    have hclaims := State.claims_of_response (s := s) (v := (s.takeRequest t).clearSignal t.request.domain) rfl hk
      s.tables.domains[t.request.domain].spurious 0 0 0 { spurious := true } rfl
    rw [← State.claimEffect_of_none hnone] at hclaims
    refine ⟨_, _, exec_claim hn hk he, hclaims.served, ?_, hclaims.answered, ?_, hclaims.tables, hclaims.bays, hclaims.capture⟩
    · rw [packFields_toNat]
      simp only [packSum_cons, packSum_nil]
      omega
    · have hundeliverable (o : Item) : ((s.takeRequest t).clearSignal t.request.domain).deliverable t.request.domain o = false :=
        ((s.takeRequest t).clearSignal_deliverable ..).trans ((s.highest_eq_none_iff _).1 hnone o)
      rw [State.claimEffect_of_none hnone, State.reexamine_eq_self (.inr fun o => ?_), State.claimResponse, State.finish_events]
      · rfl
      · rw [← hundeliverable o]
        refine State.deliverable_congr _ _ _ _ ?_ ?_ ?_ ?_ ?_ ?_ <;> rw [State.claimResponse]
        all_goals simp only [State.finish_events, State.finish_tables]
  case some =>
    have heffect := State.claimEffect_of_some (t := t) hit
    obtain ⟨hdefect, htracked, huntracked⟩ := State.claimItem_cases (s := s) hk it
    simp only [← heffect] at hdefect htracked huntracked
    have hother (e : DomainId) (he : e ≠ t.request.domain) : (s.claimedEvents t.request.domain it).delivery[e] = s.events.delivery[e] := by
      rw [State.claimedEvents_delivery]
      exact Vector.getElem_set_ne _ _ fun h => he (Fin.ext h.symm)
    have hsame : (s.claimedEvents t.request.domain it).delivery[t.request.domain] = { s.events.delivery[t.request.domain] with signal := false, notice := false } := by
      rw [State.claimedEvents_delivery]
      exact Vector.getElem_set_self _
    have hactive (o : Item) := s.claimedEvents_isActive t.request.domain it o
    have hpending (o : Item) := s.claimedEvents_isPending t.request.domain it o
    refine ⟨(s.takeRequest t).claimEffect t, packFields [(s.events.routes[it.source].vector, 0), (it.source, 8), (s.events.routes[it.source].priority, 16)],
      exec_claim hn hk he, ?_⟩
    by_cases hu : s.events.routes[it.source].vector.val < s.events.limit ∧ s.events.descriptors[s.events.routes[it.source].vector].present = true
    · have husable := (s.events.usable_iff _).2 hu
      cases hx : s.events.descriptors[s.events.routes[it.source].vector].kind with
      | tracked =>
        have hclaims := htracked husable hx
        have hentered : ∀ e, e ≠ t.request.domain → (State.enterService t.request.domain it s.events.routes[it.source].priority s.events.routes[it.source].vector
            { s with events := s.claimedEvents t.request.domain it }).events.delivery[e] = s.events.delivery[e] := fun e he => by
          rw [State.enterService, State.mapDelivery_other he, EventUnit.setActive_delivery]
          exact hother e he
        obtain ⟨hlatch, hlatches, htables, hdelivery⟩ := hclaims.events_kept (it := it)
          (fun o => by rw [State.enterService, State.mapDelivery_isPending, EventUnit.setActive_isPending])
          ⟨EventUnit.setActive_routes .., EventUnit.setActive_descriptors .., EventUnit.setActive_limit ..⟩ hentered
        have hmarks (o : Item) := hclaims.examined.active o
        simp only [State.enterService, State.mapDelivery_isActive, EventUnit.isActive_setActive] at hmarks
        refine ⟨hclaims.served, claimPayload_head, hlatch, hlatches, htables, hdelivery, fun h => absurd hu h, fun _ => hclaims.capture,
          fun _ _ => ⟨hclaims.answered, ?_, fun o ho => ?_, ?_⟩, fun _ h => (nomatch h), hclaims.tables, hclaims.bays⟩
        · rw [hmarks, if_pos rfl]
        · rw [hmarks, if_neg ho, hactive]
        · have hexamined := hclaims.examined.examined _ List.mem_cons_self
          rw [State.enterService, State.mapDelivery_same, EventUnit.setActive_delivery, hsame] at hexamined
          exact hexamined
      | untracked =>
        have hclaims := huntracked husable hx
        obtain ⟨hlatch, hlatches, htables, hdelivery⟩ := hclaims.events_kept (it := it) (fun _ => rfl) ⟨rfl, rfl, rfl⟩ hother
        refine ⟨hclaims.served, claimPayload_head, hlatch, hlatches, htables, hdelivery, fun h => absurd hu h, fun _ => hclaims.capture,
          fun _ h => (nomatch h), fun _ _ => ⟨hclaims.answered, fun o => (hclaims.examined.active o).trans (hactive o), ?_⟩, hclaims.tables, hclaims.bays⟩
        exact hsame ▸ hclaims.examined.examined _ List.mem_cons_self
    · have hclaims := hdefect (Bool.eq_false_iff.2 (mt (s.events.usable_iff _).1 hu))
      obtain ⟨hlatch, hlatches, htables, hdelivery⟩ := hclaims.events_kept (it := it) (fun _ => rfl) ⟨rfl, rfl, rfl⟩ hother
      refine ⟨hclaims.served, claimPayload_head, hlatch, hlatches, htables, hdelivery,
        fun _ => ⟨hclaims.answered, fun o => (hclaims.examined.active o).trans (hactive o), ?_, hclaims.capture⟩, fun h => absurd h hu,
        fun h => absurd h hu, fun h => absurd h hu, hclaims.tables, hclaims.bays⟩
      exact hsame ▸ hclaims.examined.examined _ List.mem_cons_self

/-! ### MESSAGE (R154) -/

/-- The latches of channel `c` that a MESSAGE sets, one after the other. -/
def State.latchAll (c : Fin 4) (es : List DomainId) (s : State) : State := es.foldl (fun s e => s.latch (.msg c e)) s

/-- A message item of another domain does not bear on what is deliverable to `d` (R144). -/
theorem State.latch_msg_deliverable {c : Fin 4} {e d : DomainId} (h : d ≠ e) (it : Item) (s : State) : (s.latch (.msg c e)).deliverable d it = s.deliverable d it := by
  by_cases hit : it = .msg c e
  · have hrouted (u : State) : u.deliverable d (.msg c e) = false := Bool.eq_false_iff.2 fun hdel => by
      obtain ⟨-, hto, -⟩ := (u.deliverable_iff d _).1 hdel
      exact h hto.symm
    rw [hit, hrouted, hrouted]
  · exact State.deliverable_congr _ _ _ _ ((s.latch_isPending _ it).trans (if_neg hit)) (State.latch_events_routes ..) (State.latch_threshold ..)
      (State.latch_inService ..) (State.latch_isActive ..) (by rw [State.latch_tables])

/-- What the setting of several latches of one channel makes of the part: each named domain has been re-examined as it stood, and nothing else changes. -/
structure State.LatchesAll (s : State) (c : Fin 4) (es : List DomainId) (u : State) : Prop where
  pending : ∀ it, u.events.isPending it = true ↔ s.events.isPending it = true ∨ ∃ e ∈ es, it = .msg c e
  active : ∀ it, u.events.isActive it = s.events.isActive it
  tables : s.events.TablesKept u.events
  deliverable : ∀ d, d ∉ es → ∀ it, u.deliverable d it = s.deliverable d it
  examined : ∀ e ∈ es, u.ReexaminedFrom e s.events.delivery[e]
  others : ∀ d, d ∉ es → u.events.delivery[d] = s.events.delivery[d]
  same : u = { s with events := u.events }

theorem State.latch_same (it : Item) (s : State) : s.latch it = { s with events := (s.latch it).events } := by
  unfold State.latch State.reexamine
  split <;> rfl

theorem State.latchesAll (c : Fin 4) {es : List DomainId} (hn : es.Nodup) (s : State) : s.LatchesAll c es (s.latchAll c es) := by
  induction es generalizing s with
  | nil => exact ⟨by simp [State.latchAll], fun _ => rfl, ⟨rfl, rfl, rfl⟩, fun _ _ _ => rfl, nofun, fun _ _ => rfl, rfl⟩
  | cons x xs ih =>
    obtain ⟨hx, hxs⟩ := List.nodup_cons.1 hn
    have hlatched := ih hxs (s.latch (.msg c x))
    change (s.latch (.msg c x)).LatchesAll c xs (s.latchAll c (x :: xs)) at hlatched
    have hdelivery (d : DomainId) (hd : d ≠ x) : (s.latch (.msg c x)).events.delivery[d] = s.events.delivery[d] := State.latch_delivery_other (it := .msg c x) hd
    refine { pending := fun it => ?_, active := fun it => (hlatched.active it).trans (State.latch_isActive ..), tables := ?_, deliverable := fun d hd it => ?_,
             examined := fun e he => ?_, others := fun d hd => ?_, same := ?_ }
    · rw [hlatched.pending, State.latch_isPending]
      simp only [List.mem_cons, exists_eq_or_imp]
      split <;> simp_all
    · obtain ⟨hr, hd, hl⟩ := hlatched.tables
      obtain ⟨hr', hd', hl'⟩ := s.latch_tablesKept (.msg c x)
      exact ⟨hr.trans hr', hd.trans hd', hl.trans hl'⟩
    · rw [hlatched.deliverable d (fun h => hd (List.mem_cons_of_mem _ h)), State.latch_msg_deliverable fun h => hd (by rw [h]; exact List.mem_cons_self)]
    · rcases List.mem_cons.1 he with rfl | he
      · have hset : (s.latch (.msg c e)).ReexaminedFrom e s.events.delivery[e] := s.latch_reexamined (.msg c e)
        simp only [State.ReexaminedFrom] at hset ⊢
        simpa only [hlatched.deliverable e hx, hlatched.others e hx] using hset
      · have hne : e ≠ x := fun h => hx (h ▸ he)
        exact hdelivery e hne ▸ hlatched.examined e he
    · rw [hlatched.others d fun h => hd (List.mem_cons_of_mem _ h), hdelivery d fun h => hd (by rw [h]; exact List.mem_cons_self)]
    · have hsame := hlatched.same
      rw [State.latch_same] at hsame
      exact hsame

theorem mem_messageTargets {s : State} {r : Request} {e : DomainId} :
    e ∈ s.messageTargets r ↔ (r.mask.getLsbD e && s.tables.domains[e].enabled) = true := by
  rw [State.messageTargets, List.mem_filter, and_iff_right (mem_allDomains e)]
  rfl

theorem messageTargets_nodup (s : State) (r : Request) : (s.messageTargets r).Nodup := List.Pairwise.filter _ (by decide : allDomains.Nodup)

/-- The effect of a MESSAGE on channel `c` that passed its checks (R154). -/
theorem State.messageEffect_latches {s : State} {t : Taken} {c : Fin 4} (hk : t.request.kind = .message) (hc : t.request.channel = c) :
    let u := (s.takeRequest t).messageEffect t
    let fresh := ((s.messageTargets t.request).filter fun e => !s.events.isPending (.msg c e)).length
    s.Concludes t .ok (packFields [(fresh, 0)]) u ∧ u.events = ((s.takeRequest t).latchAll c (s.messageTargets t.request)).events := by
  dsimp only
  have hsame := ((s.takeRequest t).latchesAll c (messageTargets_nodup s t.request)).same
  rw [State.messageEffect, hc]
  exact ⟨State.concludes_finish hsame (by rw [hk]; rfl) (fun _ => ⟨rfl, rfl, rfl⟩) rfl, State.finish_events ..⟩

theorem exec_message {s : State} {t : Taken} (hn : s.nextTaken = some t) (hk : t.request.kind = .message) (he : s.tables.domains[t.request.domain].enabled = true) :
    exec .message s = .next ((s.takeRequest t).messageChecked t) := congrArg _ (State.serveChecked_of State.messageChecked hn hk he)

/-- The vector of the message items of the request's channel. -/
def State.messageVector (s : State) (r : Request) : Fin 256 := s.events.routes[(Item.msg r.channel 0).source].vector

theorem State.messageChecked_of_unusable {s : State} {t : Taken} (h : ¬ s.events.usable (s.messageVector t.request) = true) :
    s.messageChecked t = s.finishWith t .noDescriptor := if_pos (by rw [Bool.not_eq_true']; exact Bool.eq_false_iff.2 h)

theorem State.messageChecked_of_usable {s : State} {t : Taken} (h : s.events.usable (s.messageVector t.request) = true) :
    s.messageChecked t = if s.tables.domains[t.request.domain].level ≤ s.events.descriptors[s.messageVector t.request].messageLevel then s.messageEffect t
      else s.finishWith t .level := if_neg (by rw [Bool.not_eq_true', Bool.not_eq_false]; exact h)

/-- Settles O23: source 64 + c is that of the message items of channel c, and the latches of the targets are set one after the other. -/
theorem messageSetsEnabledLatches : Obligations.MessageSetsEnabledLatches := by
  intro s t c n hn hk he haux hsource
  have hchannel : t.request.channel = c := Fin.ext (by rw [Request.channel, haux]; exact Nat.mod_eq_of_lt c.isLt)
  obtain rfl : n = (Item.msg t.request.channel 0).source := Fin.ext (by rw [hsource, hchannel]; rfl)
  dsimp only
  have hexec := exec_message hn hk he
  have husable := (s.takeRequest t).events.usable_iff ((s.takeRequest t).messageVector t.request)
  refine ⟨fun hu => ⟨_, ?_, s.answeredAlone_finishWith t .noDescriptor⟩, fun hlim hp hl => ⟨_, ?_, s.answeredAlone_finishWith t .level⟩, fun hlim hp hl => ?_⟩
  · rw [hexec, State.messageChecked_of_unusable (mt husable.1 hu)]
  · exact hexec.trans (congrArg _ ((State.messageChecked_of_usable (husable.2 ⟨hlim, hp⟩)).trans (if_neg (Nat.not_le.2 hl))))
  · obtain ⟨hconcludes, hevents⟩ := State.messageEffect_latches (s := s) hk hchannel
    have hlatched := (s.takeRequest t).latchesAll c (messageTargets_nodup s t.request)
    have hmem (e : DomainId) : e ∈ s.messageTargets t.request ↔ (t.request.mask.getLsbD e && s.tables.domains[e].enabled) = true := mem_messageTargets
    have hfresh : ((s.messageTargets t.request).filter fun e => !s.events.isPending (.msg c e)).length =
        ((List.finRange 8).filter fun e : DomainId => t.request.mask.getLsbD e && s.tables.domains[e].enabled && !s.events.isPending (.msg c e)).length := by
      rw [State.messageTargets, List.filter_filter, show allDomains = List.finRange 8 by decide]
      exact congrArg List.length (List.filter_congr fun e _ => Bool.and_comm _ _)
    have hexamined (e : DomainId) (y : Delivery) : State.ReexaminedFrom ((s.takeRequest t).latchAll c (s.messageTargets t.request)) e y →
        ((s.takeRequest t).messageEffect t).ReexaminedFrom e y := by
      have hdel (it : Item) : ((s.takeRequest t).messageEffect t).deliverable e it = ((s.takeRequest t).latchAll c (s.messageTargets t.request)).deliverable e it := by
        have htables := hlatched.same
        refine State.deliverable_congr _ _ _ _ (by rw [hevents]) (by rw [hevents]) (by rw [hevents]) (by rw [hevents]) (by rw [hevents]) ?_
        rw [htables, hconcludes.tables.2.1]
        rfl
      simp only [State.ReexaminedFrom, hdel, hevents]
      exact id
    refine ⟨_, _, ?_, hconcludes.served, ?_, hconcludes.answered, fun it => ?_, fun it => ?_, ?_, fun e => ⟨fun hr => ?_, fun hr => ?_⟩, hconcludes.tables, hconcludes.bays,
      hconcludes.capture⟩
    · exact hexec.trans (congrArg _ ((State.messageChecked_of_usable (husable.2 ⟨hlim, hp⟩)).trans (if_pos hl)))
    · rw [← hfresh, packFields_toNat]
      have hle : ((s.messageTargets t.request).filter fun e => !s.events.isPending (.msg c e)).length ≤ 8 :=
        Nat.le_trans (List.length_filter_le _ _) (List.length_filter_le _ allDomains)
      simp only [packSum_cons, packSum_nil]
      omega
    · rw [hevents, hlatched.pending]
      exact or_congr_right (exists_congr fun e => and_congr_left fun _ => hmem e)
    · rw [hevents]; exact hlatched.active it
    · rw [hevents]; exact hlatched.tables
    · exact hexamined e _ (hlatched.examined e ((hmem e).2 hr))
    · rw [hevents]; exact hlatched.others e (by rw [hmem, hr]; decide)

end Sys2Proof.Machine

/-! What every service of the arbiter leaves (2.3), whatever its outcome: the SYNC that waits or is answered (3.5), and from all of them that a service takes its request alone. -/

namespace Sys2Proof.Machine

/-! ### One pass over a list -/

/-- A fold taken one element after the other: what holds of the part that has been passed holds of the whole list at the end. -/
theorem foldl_passes {α β : Type} {P : List α → β → Prop} {f : β → α → β} (l : List α) {s : β} (h0 : P [] s)
    (hstep : ∀ passed x rest v, l = passed ++ x :: rest → P passed v → P (passed ++ [x]) (f v x)) : P l (l.foldl f s) := by
  suffices h : ∀ (rest passed : List α) (v : β), l = passed ++ rest → P passed v → P l (rest.foldl f v) from h l [] s rfl h0
  intro rest
  induction rest with
  | nil => intro passed v hl hv; rw [List.append_nil] at hl; exact hl ▸ hv
  | cons x rest ih =>
    intro passed v hl hv
    exact ih (passed ++ [x]) (f v x) (by rw [hl, List.append_assoc]; rfl) (hstep passed x rest v hl hv)

/-! ### The examination of SYNCs (R56, R57) -/

/-- One step of the examination of the SYNCs of `ds`. -/
def State.syncStep (ds : List DomainId) (s : State) (e : EntryId) : State :=
  if ds.contains s.tracker.entries[e].domain && s.tracker.entries[e].state == .waiting && s.tracker.earlierDone e then s.syncDone e else s

theorem State.examineSyncs_eq (ds : List DomainId) (s : State) : s.examineSyncs ds = s.tracker.taken.foldl (State.syncStep ds) s := rfl

theorem State.syncStep_due_iff (ds : List DomainId) (s : State) (e : EntryId) :
    (ds.contains s.tracker.entries[e].domain && s.tracker.entries[e].state == .waiting && s.tracker.earlierDone e) = true
      ↔ s.tracker.entries[e].domain ∈ ds ∧ s.tracker.entries[e].state = .waiting ∧ s.tracker.earlierDone e = true := by
  rw [Bool.and_eq_true, Bool.and_eq_true, List.contains_iff_mem, beq_iff_eq, and_assoc]

theorem State.syncStep_of_not_waiting {ds : List DomainId} {s : State} {e : EntryId} (h : s.tracker.entries[e].state ≠ .waiting) : s.syncStep ds e = s :=
  if_neg fun hc => h ((s.syncStep_due_iff ds e).1 hc).2.1

theorem State.syncStep_of_other_domain {ds : List DomainId} {s : State} {e : EntryId} (h : s.tracker.entries[e].domain ∉ ds) : s.syncStep ds e = s :=
  if_neg fun hc => h ((s.syncStep_due_iff ds e).1 hc).1

theorem State.syncStep_of_earlier_open {ds : List DomainId} {s : State} {e : EntryId} (h : s.tracker.earlierDone e ≠ true) : s.syncStep ds e = s :=
  if_neg fun hc => h ((s.syncStep_due_iff ds e).1 hc).2.2

theorem State.syncStep_of_due {ds : List DomainId} {s : State} {e : EntryId} (hd : s.tracker.entries[e].domain ∈ ds) (hw : s.tracker.entries[e].state = .waiting)
    (he : s.tracker.earlierDone e = true) : s.syncStep ds e = s.syncDone e :=
  if_pos ((s.syncStep_due_iff ds e).2 ⟨hd, hw, he⟩)

theorem Tracker.earlierDone_iff (t : Tracker) (e : EntryId) :
    t.earlierDone e = true ↔ ∀ x ∈ t.before e, t.entries[x].domain = t.entries[e].domain → t.entries[x].state = .done := by
  simp only [Tracker.earlierDone, List.all_eq_true, Bool.or_eq_true, bne_iff_ne, beq_iff_eq, ne_eq, Decidable.imp_iff_not_or]

/-- With no SYNC waiting in the domains of an examination, nothing happens. -/
theorem State.foldl_syncStep_of_none_waiting {ds : List DomainId} {es : List EntryId} {s : State}
    (h : ∀ e ∈ es, s.tracker.entries[e].domain ∈ ds → s.tracker.entries[e].state ≠ .waiting) : es.foldl (State.syncStep ds) s = s := by
  induction es with
  | nil => rfl
  | cons x xs ih =>
    have hx : s.syncStep ds x = s := by
      by_cases hd : s.tracker.entries[x].domain ∈ ds
      · exact State.syncStep_of_not_waiting (h x List.mem_cons_self hd)
      · exact State.syncStep_of_other_domain hd
    rw [List.foldl_cons, hx]
    exact ih fun e he => h e (List.mem_cons_of_mem _ he)

/-- The tracker entries that one step of an examination leaves. -/
theorem State.syncStep_entry_ne {ds : List DomainId} {s : State} {e x : EntryId} (h : x ≠ e) : (s.syncStep ds e).tracker.entries[x] = s.tracker.entries[x] := by
  unfold State.syncStep
  split
  · exact State.syncDone_other h s
  · rfl

/-- The record of a SYNC that goes DONE with the posted-fault flags as they stand (R57). -/
def Entry.synced (x : Entry) (faults : Vector Bool 8) : Entry :=
  { x with state := .done, status := .ok, flags := { x.flags with postedFault := faults[x.domain] } }

theorem State.syncDone_same (e : EntryId) (s : State) : (s.syncDone e).tracker.entries[e] = s.tracker.entries[e].synced s.tracker.postedFault :=
  State.mapEntry_same e (fun y => { y with
    state := .done, status := .ok, flags := { y.flags with postedFault := s.tracker.postedFault[s.tracker.entries[e].domain] } }) s

theorem State.syncStep_taken (ds : List DomainId) (s : State) (e : EntryId) : (s.syncStep ds e).tracker.taken = s.tracker.taken := by
  unfold State.syncStep
  split <;> rfl

theorem State.syncStep_order (ds : List DomainId) (s : State) (e : EntryId) : (s.syncStep ds e).tracker.order = s.tracker.order := by
  unfold State.syncStep
  split <;> rfl

/-- A SYNC that has waited behind an entry of its domain that is still at work waits on (R56). -/
theorem State.examineSyncs_waits {ds : List DomainId} {s : State} {e x : EntryId} (hx : x ∈ s.tracker.before e)
    (hd : s.tracker.entries[x].domain = s.tracker.entries[e].domain) (hdone : s.tracker.entries[x].state ≠ .done) (hwait : s.tracker.entries[x].state ≠ .waiting) :
    (s.examineSyncs ds).tracker.entries[e] = s.tracker.entries[e] := by
  have hkept : (s.examineSyncs ds).tracker.entries[e] = s.tracker.entries[e] ∧ (s.examineSyncs ds).tracker.entries[x] = s.tracker.entries[x]
      ∧ (s.examineSyncs ds).tracker.taken = s.tracker.taken := by
    rw [State.examineSyncs_eq]
    refine foldl_kept (P := fun v : State => v.tracker.entries[e] = s.tracker.entries[e] ∧ v.tracker.entries[x] = s.tracker.entries[x]
      ∧ v.tracker.taken = s.tracker.taken) (fun v y hv => ?_) _ s ⟨rfl, rfl, rfl⟩
    obtain ⟨hve, hvx, htaken⟩ := hv
    refine ⟨?_, ?_, (State.syncStep_taken ..).trans htaken⟩
    · by_cases hy : e = y
      · subst hy
        have hopen : v.tracker.earlierDone e ≠ true := fun h => hdone (by
          rw [← hvx]
          refine (Tracker.earlierDone_iff _ _).1 h x ?_ ?_
          · rw [Tracker.before, htaken]; exact hx
          · rw [hvx, hve]; exact hd)
        rw [State.syncStep_of_earlier_open hopen, hve]
      · rw [State.syncStep_entry_ne hy, hve]
    · by_cases hy : x = y
      · subst hy
        rw [State.syncStep_of_not_waiting (by rw [hvx]; exact hwait), hvx]
      · rw [State.syncStep_entry_ne hy, hvx]
  exact hkept.1


/-! ### Responses made ready (R60) -/

/-- An entry that is to be answered, and stands in the list, is answered with its response as assembled (R46, R60). -/
theorem State.readyThese_answers {es : List EntryId} {s : State} {e : EntryId} (he : e ∈ es) (h : s.tracker.entries[e].unanswered = true) :
    ∃ n, (s.readyThese es).tracker.entries[e] = { s.tracker.entries[e] with response := some s.tracker.entries[e].assemble, seq := some n } := by
  induction es generalizing s with
  | nil => cases he
  | cons x xs ih =>
    show ∃ n, ((s.readyIfDone x).readyThese xs).tracker.entries[e] = _
    by_cases hx : e = x
    · subst hx
      have hready : (s.readyIfDone e).tracker.entries[e] = { s.tracker.entries[e] with response := some s.tracker.entries[e].assemble, seq := some s.tracker.nextSeq } := by
        rw [State.readyIfDone_unanswered s e h, State.readyDone, State.makeReady_same]
      refine ⟨s.tracker.nextSeq, ?_⟩
      rw [State.readyThese_keeps _ _ _ (Entry.unanswered_eq_false _ fun _ _ => by rw [hready]; rfl), hready]
    · have hkept : (s.readyIfDone x).tracker.entries[e] = s.tracker.entries[e] := by
        unfold State.readyIfDone
        split
        · exact State.makeReady_other hx _ s
        · rfl
      rw [← hkept] at h ⊢
      exact ih (List.mem_of_ne_of_mem hx he) h

/-! ### The service of a SYNC (R56, R57) -/

/-- Two records of one request (R32). -/
def Entry.SameRequest (x y : Entry) : Prop := y.domain = x.domain ∧ y.tag = x.tag ∧ y.kind = x.kind

theorem State.examine_nil_sameRequest (ds : List DomainId) (s : State) (e : EntryId) : s.tracker.entries[e].SameRequest (s.examine [] ds).tracker.entries[e] := by
  unfold State.examine State.letGo
  rw [State.examineHolds_nil]
  refine foldl_kept (P := fun v : State => s.tracker.entries[e].SameRequest v.tracker.entries[e]) (fun v x hv => ?_) _ _
    (foldl_kept (P := fun v : State => s.tracker.entries[e].SameRequest v.tracker.entries[e]) (fun v x hv => ?_) _ s ⟨rfl, rfl, rfl⟩)
  · unfold State.readyIfDone
    split
    · rw [State.readyDone, State.makeReady, State.mapEntry_get]
      split
      · next h => subst h; exact hv
      · exact hv
    · exact hv
  · split
    · rw [State.syncDone, State.mapEntry_get]
      split
      · next h => subst h; exact hv
      · exact hv
    · exact hv

/-- The request taken with its entry WAITING, before the SYNCs of its domain are examined. -/
def State.waiting (s : State) (t : Taken) : State := (s.takeRequest t).mapEntry t.entry fun y => { y with state := .waiting }

theorem State.waiting_entry (s : State) (t : Taken) : (s.waiting t).tracker.entries[t.entry] = { Entry.ofRequest t.request with state := .waiting } := by
  rw [State.waiting, State.mapEntry_same, State.takeRequest_entry]

theorem State.waiting_other {s : State} {t : Taken} {e : EntryId} (h : e ≠ t.entry) : (s.waiting t).tracker.entries[e] = s.tracker.entries[e] := by
  rw [State.waiting, State.mapEntry_other h, State.takeRequest_other t s e h]

theorem State.waiting_taken (s : State) (t : Taken) : (s.waiting t).tracker.taken = s.tracker.taken ++ [t.entry] := rfl

theorem State.synced_served (s : State) (t : Taken) : s.Served t ((s.waiting t).examine [] [t.request.domain]) where
  uplink := State.examine_nil_uplink ..
  lastServed := by rw [State.examine_nil_tables]; rfl
  taken := State.examine_nil_tracker_taken ..
  identity := by
    have h := State.examine_nil_sameRequest [t.request.domain] (s.waiting t) t.entry
    rw [State.waiting_entry] at h
    exact h
  others e he hw hd := by
    have hkept := State.waiting_other (s := s) he
    rw [State.examine_nil_keeps _ _ _ (by rw [hkept]; intro h; simpa using hw h) (by rw [hkept]; exact hd), hkept]
  postedFault d hd := by
    unfold State.examine State.readyAll State.letGo
    rw [State.readyThese_postedFault, State.examineHolds_nil, State.examineSyncs_postedFault _ _ _ (by simpa using hd)]
    rfl
  pending := State.examine_nil_pending ..

theorem exec_sync {s : State} {t : Taken} (hn : s.nextTaken = some t) (hk : t.request.kind = .sync) (he : s.tables.domains[t.request.domain].enabled = true) :
    exec .sync s = .next ((s.waiting t).examine [] [t.request.domain]) := by
  have hon : (s.takeRequest t).enabled t.request.domain = true := he
  show Host.Outcome.next (s.serve _ _) = _
  rw [State.serve_of _ _ s t hn (by rw [hk]; rfl), State.admitSync, if_pos hon]
  rfl

/-- A SYNC with nothing earlier in its domain still at work goes DONE at once, and it alone (R56). -/
theorem State.examineSyncs_of_due {s : State} {t : Taken} (hnew : t.entry ∉ s.tracker.taken)
    (hdone : ∀ e ∈ s.tracker.admissionList t.request.domain, s.tracker.entries[e].state = .done) :
    (s.waiting t).examineSyncs [t.request.domain] = (s.waiting t).syncDone t.entry := by
  have hother {e : EntryId} (he : e ∈ s.tracker.taken) : (s.waiting t).tracker.entries[e] = s.tracker.entries[e] :=
    State.waiting_other fun h => hnew (h ▸ he)
  have hnone (e : EntryId) (he : e ∈ s.tracker.taken) (hd : s.tracker.entries[e].domain = t.request.domain) : s.tracker.entries[e].state = .done :=
    hdone e (List.mem_filter.2 ⟨he, beq_iff_eq.2 hd⟩)
  have hpass : s.tracker.taken.foldl (State.syncStep [t.request.domain]) (s.waiting t) = s.waiting t :=
    State.foldl_syncStep_of_none_waiting fun e he hd => by
      rw [hother he] at hd ⊢
      rw [hnone e he (List.mem_singleton.1 hd)]
      decide
  rw [State.examineSyncs_eq, State.waiting_taken, List.foldl_append, hpass]
  refine State.syncStep_of_due ?_ ?_ ((Tracker.earlierDone_iff _ _).2 fun x hx hd => ?_)
  · rw [State.waiting_entry]; exact List.mem_singleton.2 rfl
  · rw [State.waiting_entry]
  · rw [Tracker.before, State.waiting_taken, takeWhile_append_self hnew] at hx
    rw [hother hx, State.waiting_entry] at hd
    rw [hother hx]
    exact hnone x hx hd

/-- Settles O16: the pass over the earlier entries finds nothing to let go where they are all DONE, and the SYNC waits behind one that is still at work. -/
theorem syncWaitsForEarlierEntries : Obligations.SyncWaitsForEarlierEntries := by
  intro s t hn hk he hl
  have hserved := s.synced_served t
  have hnew : t.entry ∉ s.tracker.taken := hl.not_mem_of_free (State.entry_free_of_nextTaken hn)
  have hexamine : (s.waiting t).examine [] [t.request.domain] = ((s.waiting t).examineSyncs [t.request.domain]).readyAll := by
    rw [State.examine, State.letGo, State.examineHolds_nil]
  refine ⟨_, exec_sync hn hk he, hserved, ?_, State.examine_nil_bays .., State.examine_nil_events .., State.examine_nil_capture .., fun hdone => ?_,
    fun ⟨x, hx, hxdone, hxwait⟩ => ?_⟩
  · unfold State.TablesKept
    rw [State.examine_nil_tables]
    exact s.takeRequest_tablesKept t
  · have hentry : ((s.waiting t).syncDone t.entry).tracker.entries[t.entry] = { Entry.ofRequest t.request with
        state := .done, status := .ok, flags := { postedFault := s.tracker.postedFault[t.request.domain] } } := by
      rw [State.syncDone_same, State.waiting_entry]
      rfl
    have hfault : ((s.waiting t).syncDone t.entry).tracker.postedFault[t.request.domain] = false := by
      have hd : (s.waiting t).tracker.entries[t.entry].domain = t.request.domain := by rw [State.waiting_entry]; rfl
      show ((s.waiting t).tracker.postedFault.set (s.waiting t).tracker.entries[t.entry].domain false)[t.request.domain] = false
      simp only [hd]
      exact Vector.getElem_set_self ..
    have hmem : t.entry ∈ ((s.waiting t).syncDone t.entry).tracker.taken := by
      show t.entry ∈ (s.waiting t).tracker.taken
      rw [State.waiting_taken]
      exact List.mem_append_right _ (List.mem_singleton.2 rfl)
    obtain ⟨n, hready⟩ := State.readyThese_answers hmem (by rw [hentry]; rfl)
    rw [hexamine, State.examineSyncs_of_due hnew hdone, State.readyAll, State.readyThese_postedFault, hready, hentry]
    refine ⟨rfl, hfault, ?_⟩
    simp only [Entry.assemble, Entry.ofRequest, hk]
    rfl
  · obtain ⟨hxtaken, hxd⟩ := List.mem_filter.1 hx
    have hxe : x ≠ t.entry := fun h => hnew (h ▸ hxtaken)
    have hsame : (s.waiting t).tracker.entries[x] = s.tracker.entries[x] := State.waiting_other hxe
    have hwaits : ((s.waiting t).examineSyncs [t.request.domain]).tracker.entries[t.entry] = (s.waiting t).tracker.entries[t.entry] := by
      refine State.examineSyncs_waits (x := x) ?_ ?_ ?_ ?_
      · rw [Tracker.before, State.waiting_taken, takeWhile_append_self hnew]; exact hxtaken
      · rw [hsame, State.waiting_entry]; exact eq_of_beq hxd
      · rw [hsame]; exact hxdone
      · rw [hsame]; exact hxwait
    refine ⟨?_, ?_, fun e hm hd hw => ?_⟩
    · rw [hexamine, State.readyAll, State.readyThese_keeps _ _ _ (by rw [hwaits, State.waiting_entry]; rfl), hwaits, State.waiting_entry]
    · rw [hexamine, State.readyAll, State.readyThese_keeps _ _ _ (by rw [hwaits, State.waiting_entry]; rfl), hwaits, State.waiting_entry]; rfl
    · exact hserved.others e (fun h => hnew (h ▸ (List.mem_filter.1 hm).1)) (fun h => absurd h hw) fun h => absurd h hd

/-! ### The services that end with their request (R33, R46) -/

/-- What such a service has made of the bays by the time its request ends. -/
inductive Service.Bays (t : Taken) (s v : State) : Prop
  | same (h : v.bays = s.bays)
  | policy (b : BayId) (p : BayPolicy) (h : v.bays = s.bays.set b { s.bays[b] with policy := p })
  | acted (f : Bay → Option Bay) (hf : f ∈ engineActions) (y : Bay) (hy : f s.bays[t.request.actionBay] = some y)
      (h : v.bays = s.bays.set t.request.actionBay y)

/-- The service has its effect on other blocks than the tracker, and ends its request with status `st` and what `fill` puts in its entry. -/
structure Service.Finishes (t : Taken) (s v : State) (st : Status) (fill : Entry → Entry) (u : State) : Prop where
  tracker : v.tracker = s.tracker
  bays : Service.Bays t s v
  fills : ∀ x, ∃ f r b, fill x = { x with flags := f, result := r, buffer := b }
  endTracker : u.tracker = (v.finish t st fill).tracker
  endBays : u.bays = v.bays
  pending : u.pending = s.pending

theorem Service.finishes_finish {t : Taken} {s v : State} {st : Status} {fill : Entry → Entry} (ht : v.tracker = s.tracker) (hb : Service.Bays t s v)
    (hp : v.pending = s.pending) (hfill : ∀ x, ∃ f r b, fill x = { x with flags := f, result := r, buffer := b }) :
    Service.Finishes t s v st fill (v.finish t st fill) :=
  ⟨ht, hb, hfill, rfl, State.finish_bays .., (State.finish_pending ..).trans hp⟩

theorem Service.Finishes.reexamineAll {t : Taken} {s v u : State} {st : Status} {fill : Entry → Entry} (h : Service.Finishes t s v st fill u)
    (ds : List DomainId) : Service.Finishes t s v st fill (u.reexamineAll ds) :=
  ⟨h.tracker, h.bays, h.fills, (State.reexamineAll_tracker ..).trans h.endTracker, (State.reexamineAll_bays ..).trans h.endBays,
    (State.reexamineAll_pending ..).trans h.pending⟩

theorem Service.finishes_finishWith {t : Taken} {s v : State} (st : Status) (ht : v.tracker = s.tracker) (hb : Service.Bays t s v)
    (hp : v.pending = s.pending) : Service.Finishes t s v st id (v.finishWith t st) :=
  Service.finishes_finish ht hb hp fun x => ⟨x.flags, x.result, x.buffer, rfl⟩

/-- An effect on the event unit and the capture, the end of the request, and a re-examination. -/
theorem Service.finishes_of_eq {t : Taken} {s u : State} (h : ∃ (v : State) (st : Status) (fill : Entry → Entry) (ds : List DomainId), u = (v.finish t st fill).reexamineAll ds ∧ v.tracker = s.tracker
    ∧ v.bays = s.bays ∧ v.pending = s.pending ∧ ∀ x, ∃ f r b, fill x = { x with flags := f, result := r, buffer := b }) :
    ∃ v st fill, Service.Finishes t s v st fill u := by
  obtain ⟨v, st, fill, ds, rfl, ht, hb, hp, hfill⟩ := h
  exact ⟨v, st, fill, (Service.finishes_finish ht (.same hb) hp hfill).reexamineAll ds⟩

theorem State.claimEffect_finishes (t : Taken) (s : State) : ∃ v st fill, Service.Finishes t s v st fill (s.claimEffect t) := by
  refine Service.finishes_of_eq ?_
  unfold State.claimEffect
  dsimp only
  split
  · exact ⟨_, _, _, [t.request.domain], rfl, rfl, rfl, rfl, fun x => ⟨_, x.result, _, rfl⟩⟩
  · unfold State.claimItem
    dsimp only
    split
    · split
      · exact ⟨_, _, _, [t.request.domain], rfl, rfl, rfl, rfl, fun x => ⟨_, x.result, _, rfl⟩⟩
      · exact ⟨_, _, _, [t.request.domain], rfl, rfl, rfl, rfl, fun x => ⟨_, x.result, _, rfl⟩⟩
    · exact ⟨_, _, _, [t.request.domain], rfl, State.offer_tracker .., State.offer_bays .., State.offer_pending .., fun x => ⟨_, x.result, _, rfl⟩⟩

theorem State.completeEffect_finishes (t : Taken) (s : State) : ∃ v st fill, Service.Finishes t s v st fill (s.completeEffect t) := by
  cases hlist : s.events.delivery[t.request.domain].inService with
  | nil =>
    rw [State.completeEffect_of_nil hlist]
    exact ⟨s, _, _, Service.finishes_finishWith _ rfl (.same rfl) rfl⟩
  | cons x rest =>
    rw [State.completeEffect_of_cons hlist]
    exact Service.finishes_of_eq ⟨_, _, _, _, rfl, rfl, rfl, rfl, fun y => ⟨y.flags, _, y.buffer, rfl⟩⟩

theorem State.clearServiceEffect_finishes (t : Taken) (s : State) : ∃ v st fill, Service.Finishes t s v st fill (s.clearServiceEffect t) := by
  refine Service.finishes_of_eq ?_
  unfold State.clearServiceEffect
  dsimp only
  exact ⟨_, _, _, _, rfl, rfl, rfl, rfl, fun y => ⟨y.flags, _, y.buffer, rfl⟩⟩

theorem State.thresholdEffect_finishes (t : Taken) (s : State) : ∃ v st fill, Service.Finishes t s v st fill (s.thresholdEffect t) :=
  Service.finishes_of_eq ⟨_, _, _, [t.request.domain], rfl, rfl, rfl, rfl, fun y => ⟨y.flags, _, y.buffer, rfl⟩⟩

theorem State.messageEffect_finishes (t : Taken) (s : State) : ∃ v st fill, Service.Finishes t s v st fill (s.messageEffect t) := by
  have hkept {α : Type} (f : State → α) (hf : ∀ (v : State) (it : Item), f (v.latch it) = f v) :
      f (s.latchAll t.request.channel (s.messageTargets t.request)) = f s :=
    foldl_kept (P := fun v => f v = f s) (fun v e hv => (hf v _).trans hv) _ s rfl
  exact ⟨_, _, _, Service.finishes_finish (hkept State.tracker fun v it => State.latch_tracker it v) (.same (hkept State.bays fun v it => State.latch_bays it v))
    (hkept State.pending fun v it => State.latch_pending it v) fun x => ⟨x.flags, _, x.buffer, rfl⟩⟩

theorem State.withdraw_kept {α : Type} (f : State → α) (hf : ∀ (v : State) (d : DomainId), f (v.reexamine d) = f v)
    (he : ∀ (v : State) (ev : EventUnit), f { v with events := ev } = f v) (b : BayId) (k : Fin 8) (s : State) : f (s.withdraw b k) = f s := by
  unfold State.withdraw
  dsimp only
  split
  · rw [hf, he]
  · rfl

theorem RecordWrite.finishes {t : Taken} {s v : State} (h : RecordWrite t.request s v) : Service.Finishes t s v .ok id (v.finishWith t .ok) := by
  cases h with
  | aperture h | grant h | descriptor h | limit h =>
    obtain ⟨x, -, rfl⟩ := Option.map_eq_some_iff.1 h
    exact Service.finishes_finishWith _ rfl (.same rfl) rfl
  | domain h =>
    obtain ⟨x, -, rfl⟩ := Option.map_eq_some_iff.1 h
    dsimp only
    split
    · exact Service.finishes_finishWith _ rfl (.same rfl) rfl
    · exact Service.finishes_finishWith _ (State.reexamine_tracker ..) (.same (State.reexamine_bays ..)) (State.reexamine_pending ..)
  | route h =>
    obtain ⟨x, -, rfl⟩ := Option.map_eq_some_iff.1 h
    exact Service.finishes_finishWith _ (State.reexamineAll_tracker ..) (.same (State.reexamineAll_bays ..)) (State.reexamineAll_pending ..)
  | policy h =>
    obtain ⟨x, -, rfl⟩ := Option.map_eq_some_iff.1 h
    have hkept {α : Type} (f : State → α) (hf : ∀ (v : State) (d : DomainId), f (v.reexamine d) = f v)
        (he : ∀ (v : State) (ev : EventUnit), f { v with events := ev } = f v) (ks : List (Fin 8)) (b : BayId) (v : State) :
        f (ks.foldl (fun s k => s.withdraw b k) v) = f v :=
      foldl_kept (P := fun w => f w = f v) (fun w k hw => (State.withdraw_kept f hf he b k w).trans hw) _ v rfl
    exact Service.finishes_finishWith _ (hkept State.tracker (fun v d => State.reexamine_tracker d v) (fun _ _ => rfl) _ _ _)
      (.policy _ x.1 (hkept State.bays (fun v d => State.reexamine_bays d v) (fun _ _ => rfl) _ _ _))
      (hkept State.pending (fun v d => State.reexamine_pending d v) (fun _ _ => rfl) _ _ _)

/-- The services sorted by what they do to the tracker and the bays. -/
inductive Service.Sort (c : Instr) (t : Taken) (s u : State) : Prop
  | admitted (i : Fin 32) (h : s.checkData t.request = .admitted i) (hu : u = s.admitData t i)
  | synced (hk : t.request.kind = .sync) (hu : u = (s.mapEntry t.entry fun y => { y with state := .waiting }).examine [] [t.request.domain])
  | reset (hc : c = .reset) (h : s.bays[t.request.actionBay].state.resettable = true) (hu : u = (s.resetBay t.request.actionBay).finishWith t .ok)
  | finishes (v : State) (st : Status) (fill : Entry → Entry) (h : Service.Finishes t s v st fill u)

theorem Service.sort {c : Instr} {t : Taken} {s u : State} (h : Service c t s u) : Service.Sort c t s u := by
  have hfinishes {u : State} (h : ∃ v st fill, Service.Finishes t s v st fill u) : Service.Sort c t s u := by
    obtain ⟨v, st, fill, h⟩ := h
    exact .finishes v st fill h
  cases h with
  | refused st => exact .finishes _ _ _ (Service.finishes_finishWith st rfl (.same rfl) rfl)
  | admitted i hi => exact .admitted i hi rfl
  | synced hk => exact .synced hk rfl
  | claimed => exact hfinishes (s.claimEffect_finishes t)
  | completed => exact hfinishes (s.completeEffect_finishes t)
  | cleared => exact hfinishes (s.clearServiceEffect_finishes t)
  | threshold => exact hfinishes (s.thresholdEffect_finishes t)
  | messaged => exact hfinishes (s.messageEffect_finishes t)
  | recordRead => exact .finishes _ _ _ (Service.finishes_finish rfl (.same rfl) rfl fun x => ⟨x.flags, x.result, _, rfl⟩)
  | recordWritten v hv => exact .finishes _ _ _ hv.finishes
  | acted f hf y hy => exact .finishes _ _ _ (Service.finishes_finishWith _ rfl (.acted f hf y hy rfl) rfl)
  | captureCleared => exact .finishes _ _ _ (Service.finishes_finishWith _ rfl (.same rfl) rfl)
  | reset hc hr => exact .reset hc hr rfl

/-- The end of the request reaches its own entry, and of the others the SYNCs of its domain alone. -/
theorem Service.Finishes.served {t : Taken} {s v u : State} {st : Status} {fill : Entry → Entry} (h : Service.Finishes t (s.takeRequest t) v st fill u)
    (hturn : s.TakesTurn t u) : s.Served t u where
  uplink := hturn.uplink
  lastServed := hturn.lastServed
  taken := by rw [h.endTracker, State.finish_tracker_taken, h.tracker, State.takeRequest_taken]
  identity := by
    obtain ⟨f, r, b, hfill⟩ := h.fills (Entry.ofRequest t.request)
    rw [h.endTracker, State.finish_entry, h.tracker, State.takeRequest_entry, hfill]
    exact ⟨rfl, rfl, rfl⟩
  others e he hw hd := by
    have hkept : v.tracker.entries[e] = s.tracker.entries[e] := by rw [h.tracker, State.takeRequest_other t s e he]
    rw [h.endTracker, State.finish_other t st fill v e he (by rw [hkept]; exact hw) (by rw [hkept]; exact hd), hkept]
  postedFault d hd := by
    rw [h.endTracker]
    unfold State.finish State.examine State.readyAll State.letGo
    rw [State.readyThese_postedFault, State.examineHolds_nil, State.examineSyncs_postedFault _ _ _ (by simpa using hd)]
    show v.tracker.postedFault[d] = _
    rw [h.tracker]
    rfl
  pending := h.pending

/-- Settles O10: every service but RESET ends its request, admits it to its bay, or leaves it to wait as a SYNC; a command that names no service is none. -/
theorem serviceTakesItsRequestAlone : Obligations.ServiceTakesItsRequestAlone := by
  refine ⟨fun c s t hn hc hreset => ?_, fun c s => exec_of_not_served⟩
  obtain ⟨u, hu, hservice⟩ := exec_service hn hc
  obtain ⟨w, hw, hturn⟩ := exec_takesTurn hn hc
  obtain rfl := Host.Outcome.next.inj (hu.symm.trans hw)
  refine ⟨u, hu, ?_⟩
  cases hservice.sort with
  | admitted i hi hu => rw [hu]; exact s.admitData_served t i
  | synced hk hu => rw [hu]; exact s.synced_served t
  | reset hc hr hu => exact absurd hc hreset
  | finishes v st fill h => exact h.served hturn

end Sys2Proof.Machine

/-! The checks of a data request in their order (2.4, Table 2-4), each as the condition that the spec gives for it. -/

namespace Sys2Proof.Machine

/-! ### The first check that fails (R33) -/

/-- The checks `cs` fail where the steps `steps` do: they all pass, or the first step that does not hold gives the status. -/
def ChecksFollow (cs : List (Bool × Status)) (steps : List (Prop × Status)) : Prop :=
  ((∀ c ∈ steps, c.1) → firstFailure cs = none)
    ∧ ∀ before c after, steps = before ++ c :: after → (∀ x ∈ before, x.1) → ¬ c.1 → firstFailure cs = some c.2

theorem checksFollow_nil : ChecksFollow [] [] :=
  ⟨fun _ => rfl, fun before c after h => absurd h.symm (List.append_ne_nil_of_right_ne_nil before (List.cons_ne_nil c after))⟩

/-- A check that decides its step goes before checks that follow the later steps where that step holds. -/
theorem ChecksFollow.cons {b : Bool} {p : Prop} {st : Status} {cs : List (Bool × Status)} {steps : List (Prop × Status)} (hb : b = true ↔ p)
    (h : p → ChecksFollow cs steps) : ChecksFollow ((b, st) :: cs) ((p, st) :: steps) := by
  have hpass (hp : p) : firstFailure ((b, st) :: cs) = firstFailure cs := if_pos (hb.2 hp)
  refine ⟨fun hall => ?_, fun before c after hsplit hbefore hc => ?_⟩
  · obtain ⟨hp, hrest⟩ := List.forall_mem_cons.1 hall
    rw [hpass hp]
    exact (h hp).1 hrest
  · cases before with
    | nil =>
      obtain ⟨rfl, -⟩ := List.cons.inj hsplit
      exact if_neg fun hbt => hc (hb.1 hbt)
    | cons x xs =>
      obtain ⟨rfl, hsteps⟩ := List.cons.inj hsplit
      obtain ⟨hp, hxs⟩ := List.forall_mem_cons.1 hbefore
      rw [hpass hp]
      exact (h hp).2 xs c after hsteps hxs hc

/-! ### The conditions of the steps (R8 to R10, R13, R29, R34, R35) -/

theorem ReqKind.isWrite_iff (k : ReqKind) : k.isWrite = true ↔ k = .write ∨ k = .blockWrite ∨ k = .fetchAdd := by
  cases k <;> simp [ReqKind.isWrite]

theorem Bay.takesRequests_iff (b : Bay) :
    b.takesRequests = true ↔ (b.state = .online ∨ b.state = .parking ∨ b.state = .parked ∨ b.state = .waking) ∧ b.drainRequested = false := by
  simp only [Bay.takesRequests, Bool.and_eq_true, Bool.or_eq_true, beq_iff_eq, Bool.not_eq_true', or_assoc]

theorem wrongKind_check_iff (r : Request) (a : Aperture) :
    (!(r.kind == .fetchAdd && a.kind == .port)) = true ↔ ¬ (r.kind = .fetchAdd ∧ a.kind = .port) := by
  rw [Bool.not_eq_true', ← Bool.not_eq_true, Bool.and_eq_true, beq_iff_eq, beq_iff_eq]

theorem writeProtect_check_iff (r : Request) (a : Aperture) :
    (!(r.kind.isWrite && a.writeProtect)) = true ↔ (r.kind = .write ∨ r.kind = .blockWrite ∨ r.kind = .fetchAdd → a.writeProtect = false) := by
  rw [Bool.not_eq_true', Bool.and_eq_false_imp, ReqKind.isWrite_iff]

theorem railOff_check_iff (r : Request) (a : Aperture) (b : Bay) :
    (!(r.kind.isWrite && a.auxGated && !b.auxRail)) = true
      ↔ (r.kind = .write ∨ r.kind = .blockWrite ∨ r.kind = .fetchAdd → a.auxGated = true → b.auxRail = true) := by
  rw [Bool.not_eq_true', Bool.and_eq_false_imp, Bool.and_eq_true, ReqKind.isWrite_iff, and_imp, Bool.not_eq_false']

theorem rangeFits_iff (r : Request) (a : Aperture) (b : Bay) :
    rangeFits r a b = true ↔ (a.kind = .memory → ∃ id, b.identity = some id ∧ moduleHigh r a < idMemoryPages id * 4096) := by
  have hpages : decide (moduleHigh r a < b.memoryPages * Config.pageBytes) = true ↔ ∃ id, b.identity = some id ∧ moduleHigh r a < idMemoryPages id * 4096 := by
    rw [decide_eq_true_eq, Bay.memoryPages]
    cases b.identity with
    | none => simp
    | some id => simp [Config.pageBytes]
  rw [rangeFits, Bool.or_eq_true, hpages]
  cases a.kind <;> simp

theorem mem_portGroups_iff (r : Request) (a : Aperture) (g : Nat) : g ∈ portGroups r a ↔ moduleLow r a / 16 ≤ g ∧ g ≤ moduleHigh r a / 16 := by
  simp only [portGroups, List.mem_map, List.mem_range, Config.groupBytes]
  constructor
  · rintro ⟨i, hi, rfl⟩
    omega
  · rintro ⟨hlo, hhi⟩
    exact ⟨g - moduleLow r a / 16, by omega, by omega⟩

/-- The port groups of a span inside a sound PORT aperture are those of one grant record (R14, R28). -/
theorem portGroup_lt {r : Request} {a : Aperture} (ha : a.sound = true) (hp : a.kind = .port) (hspan : spanHigh r ≤ a.last.toNat) {g : Nat}
    (hg : g ≤ moduleHigh r a / 16) : g < 256 := by
  have hhigh : moduleHigh r a = a.offset.toNat + ((spanHigh r).toNat - a.first.toNat) := rfl
  simp only [Aperture.sound, hp, Bool.and_eq_true, decide_eq_true_eq, Config.portSpace] at ha
  obtain ⟨hfirst, ⟨-, hsize⟩, -⟩ := ha
  have hspace := of_decide_eq_true hsize
  omega

/-- The port grant check over the words of the domain's grant record for the bay (R28, R29). -/
theorem portGranted_iff {s : State} {r : Request} {a : Aperture} (ha : a.sound = true) (hspan : spanHigh r ≤ a.last.toNat) :
    s.tables.portGranted r a = true ↔ (a.kind = .port → s.tables.freeLevels[a.bay] < s.tables.domains[r.domain].level →
      ∀ (k : Fin 8) (j : Nat), j < 32 → moduleLow r a / 16 ≤ 32 * k + j → 32 * k + j ≤ moduleHigh r a / 16 →
        (s.tables.grants[(⟨8 * r.domain.val + a.bay.val, by omega⟩ : Fin 64)][k]).getLsbD j = true) := by
  have hgroups (hp : a.kind = .port) : ((portGroups r a).all fun g => s.tables.granted r.domain a.bay g) = true ↔
      ∀ (k : Fin 8) (j : Nat), j < 32 → moduleLow r a / 16 ≤ 32 * k + j → 32 * k + j ≤ moduleHigh r a / 16 →
        (s.tables.grants[(⟨8 * r.domain.val + a.bay.val, by omega⟩ : Fin 64)][k]).getLsbD j = true := by
    rw [List.all_eq_true]
    refine ⟨fun h k j hj hlo hhi => ?_, fun h g hg => ?_⟩
    · have hg := h (32 * k + j) ((mem_portGroups_iff r a _).2 ⟨hlo, hhi⟩)
      have hk : Fin.ofNat 8 ((32 * k.val + j) / 32) = k := Fin.ext (by show (32 * k.val + j) / 32 % 8 = k.val; omega)
      have hj' : (32 * k.val + j) % 32 = j := by omega
      simp only [AdmissionUnit.granted, hk, hj'] at hg
      exact hg
    · obtain ⟨hlo, hhi⟩ := (mem_portGroups_iff r a g).1 hg
      have hlt := portGroup_lt ha hp hspan hhi
      have hk : (Fin.ofNat 8 (g / 32)).val = g / 32 := Nat.mod_eq_of_lt (by omega)
      exact h (Fin.ofNat 8 (g / 32)) (g % 32) (Nat.mod_lt _ (by decide)) (by rw [hk]; omega) (by rw [hk]; omega)
  rw [AdmissionUnit.portGranted, Bool.or_eq_true, Bool.or_eq_true, decide_eq_true_eq, beq_iff_eq]
  cases hk : a.kind with
  | memory => simp
  | port =>
    rw [hgroups hk]
    simp only [reduceCtorEq, false_or, true_implies]
    exact (or_congr Nat.not_lt.symm Iff.rfl).trans Decidable.imp_iff_not_or.symm

/-- Steps 4 to 11 as the checks take them; the port groups are read where the span lies inside the match (R33). -/
theorem dataChecks_follow (s : State) (r : Request) {a : Aperture} (ha : a.sound = true) : ChecksFollow (s.dataChecks r a) (s.AdmissionSteps r a) := by
  refine .cons (spanInside_iff r a) fun ⟨_, hspan⟩ => .cons (wrongKind_check_iff r a) fun _ => .cons decide_eq_true_iff fun _ =>
    .cons (writeProtect_check_iff r a) fun _ => .cons (portGranted_iff ha hspan) fun _ => .cons (railOff_check_iff r a _) fun _ =>
    .cons (Bay.takesRequests_iff _) fun _ => .cons (rangeFits_iff r a _) fun _ => checksFollow_nil

/-- Settles O14: steps 1 and 3 by the branches of `checkData`, and steps 4 to 11 as the checks follow them. -/
theorem firstFailingCheckGivesStatus : Obligations.FirstFailingCheckGivesStatus := by
  intro s r
  refine ⟨State.checkData_of_disabled, fun he hl => ?_, fun i he hl hsound => ?_⟩
  · have hon : s.enabled r.domain = true := he
    rw [State.checkData, hon, hl]
    rfl
  · have hcheck : s.checkData r = match firstFailure (s.dataChecks r s.tables.apertures[i]) with
        | some st => .refused st
        | none => .admitted i := by
      have hon : s.enabled r.domain = true := he
      rw [State.checkData, hon, hl]
      rfl
    obtain ⟨hpass, hfail⟩ := dataChecks_follow s r hsound
    rw [hcheck]
    exact ⟨fun h => by rw [hpass h], fun before c after hs hb hc => by rw [hfail before c after hs hb hc]⟩

end Sys2Proof.Machine

/-! The layouts of the control records (Chapter 10): a record that is laid out in its words and read from them again is the same record. -/

namespace Sys2Proof.Machine

/-! ### Fields of a packed word -/

theorem bit_of_bits {w : Word} {i : Nat} {b : Bool} (h : bits w i 1 = bitVal b) : bit w i = b := by
  rw [bit, h, bitVal_beq_one]

theorem ofNat_bits {n : Nat} [NeZero n] {w : Word} {lo len : Nat} {x : Fin n} (h : bits w lo len = x.val) : Fin.ofNat n (bits w lo len) = x :=
  Fin.ext ((congrArg (· % n) h).trans (Nat.mod_eq_of_lt x.isLt))

theorem byte_of_bits {w : Word} {lo : Nat} {x : Byte} (h : bits w lo 8 = x.toNat) : BitVec.ofNat 8 (bits w lo 8) = x := by
  rw [h, BitVec.ofNat_toNat, BitVec.setWidth_eq]

/-- An enumeration of two values, read from its bit. -/
theorem ite_beq_eq {α : Type} [DecidableEq α] {x p q : α} (h : x = p ∨ x = q) : (if (x == p) = true then p else q) = x := by
  split
  · next hp => exact (eq_of_beq hp).symm
  · next hp => exact (h.resolve_left fun hx => hp (beq_iff_eq.2 hx)).symm

theorem Space.port_or_memory (k : Space) : k = .port ∨ k = .memory := by cases k <;> decide
theorem PagePolicy.close_or_hold (p : PagePolicy) : p = .close ∨ p = .hold := by cases p <;> decide
theorem HoldRule.relaxed_or_strict (r : HoldRule) : r = .relaxed ∨ r = .strict := by cases r <;> decide
theorem Tracking.untracked_or_tracked (k : Tracking) : k = .untracked ∨ k = .tracked := by cases k <;> decide
theorem PowerPolicy.auto_or_manual (p : PowerPolicy) : p = .auto ∨ p = .manual := by cases p <;> decide

theorem Width.code_lt (w : Width) : w.code < 4 := by cases w <;> decide
theorem Width.ofCode_code (w : Width) : Width.ofCode w.code = some w := by cases w <;> rfl

/-! ### The aperture record (Table 9-8) -/

/-- The fourth word of an aperture record. -/
def Aperture.attributes (a : Aperture) : Word :=
  packFields [(bitVal a.valid, 0), (bitVal (a.kind == .port), 1), (a.bay, 2), (a.width.code, 5), (bitVal (a.policy == .close), 7),
    (bitVal a.posting, 8), (bitVal (a.ordering == .relaxed), 9), (bitVal a.writeProtect, 10), (bitVal a.auxGated, 11),
    (a.level, 12), (a.mask.toNat, 16)]

theorem Aperture.words_eq (a : Aperture) : a.words = [a.first, a.last, a.offset, a.attributes] := rfl

theorem Aperture.attributes_toNat (a : Aperture) : a.attributes.toNat =
    bitVal a.valid + 2 * bitVal (a.kind == .port) + 2 ^ 2 * a.bay + 2 ^ 5 * a.width.code + 2 ^ 7 * bitVal (a.policy == .close)
      + 2 ^ 8 * bitVal a.posting + 2 ^ 9 * bitVal (a.ordering == .relaxed) + 2 ^ 10 * bitVal a.writeProtect + 2 ^ 11 * bitVal a.auxGated
      + 2 ^ 12 * a.level + 2 ^ 16 * a.mask.toNat := by
  have := bitVal_lt a.valid; have := bitVal_lt (a.kind == .port); have := a.width.code_lt; have := bitVal_lt (a.policy == .close)
  have := bitVal_lt a.posting; have := bitVal_lt (a.ordering == .relaxed); have := bitVal_lt a.writeProtect; have := bitVal_lt a.auxGated
  have := a.mask.isLt
  rw [Aperture.attributes, packFields_toNat]
  simp only [packSum_cons, packSum_nil]
  omega

/-- The fields of an aperture record stand where it is read from. -/
theorem Aperture.attributes_bits (a : Aperture) :
    (bits a.attributes 0 1 = bitVal a.valid ∧ bits a.attributes 1 1 = bitVal (a.kind == .port) ∧ bits a.attributes 2 3 = a.bay
      ∧ bits a.attributes 5 2 = a.width.code ∧ bits a.attributes 7 1 = bitVal (a.policy == .close))
    ∧ (bits a.attributes 8 1 = bitVal a.posting ∧ bits a.attributes 9 1 = bitVal (a.ordering == .relaxed) ∧ bits a.attributes 10 1 = bitVal a.writeProtect
      ∧ bits a.attributes 11 1 = bitVal a.auxGated ∧ bits a.attributes 12 2 = a.level ∧ bits a.attributes 16 8 = a.mask.toNat) := by
  have := bitVal_lt a.valid; have := bitVal_lt (a.kind == .port); have := a.width.code_lt; have := bitVal_lt (a.policy == .close)
  have := bitVal_lt a.posting; have := bitVal_lt (a.ordering == .relaxed); have := bitVal_lt a.writeProtect; have := bitVal_lt a.auxGated
  have := a.mask.isLt
  simp only [bits, a.attributes_toNat]
  refine ⟨⟨?_, ?_, ?_, ?_, ?_⟩, ?_, ?_, ?_, ?_, ?_, ?_⟩ <;> omega

theorem apertureFields_words (a : Aperture) : apertureFields a.first a.last a.offset a.attributes a.width = a := by
  obtain ⟨⟨hvalid, hkind, hbay, -, hpolicy⟩, hposting, hordering, hprotect, haux, hlevel, hmask⟩ := a.attributes_bits
  rw [apertureFields, bit_of_bits hvalid, bit_of_bits hkind, ofNat_bits hbay, bit_of_bits hpolicy, bit_of_bits hposting, bit_of_bits hordering,
    bit_of_bits hprotect, bit_of_bits haux, ofNat_bits hlevel, byte_of_bits hmask, ite_beq_eq a.kind.port_or_memory, ite_beq_eq a.policy.close_or_hold,
    ite_beq_eq a.ordering.relaxed_or_strict]

theorem apertureOfWords_words {a : Aperture} (hv : a.valid = true) (hs : a.sound = true) : apertureOfWords a.words = some a := by
  obtain ⟨⟨hvalid, -, -, hwidth, -⟩, -⟩ := a.attributes_bits
  rw [Aperture.words_eq, apertureOfWords, bit_of_bits hvalid, hv, hwidth, Width.ofCode_code]
  dsimp only
  rw [apertureFields_words, hs]
  rfl

/-! ### The other records (Tables 9-9, 10-2; R28) -/

theorem domainOfWords_words (x : DomainRec) : domainOfWords x.words = some x := by
  have := bitVal_lt x.enabled
  have hw : (packFields [(bitVal x.enabled, 0), (x.level, 4), (x.spurious, 8)]).toNat = bitVal x.enabled + 2 ^ 4 * x.level + 2 ^ 8 * x.spurious := by
    rw [packFields_toNat]
    simp only [packSum_cons, packSum_nil]
    omega
  rw [DomainRec.words, domainOfWords, bit_of_bits (b := x.enabled) (by simp only [bits, hw]; omega), ofNat_bits (x := x.level) (by simp only [bits, hw]; omega),
    ofNat_bits (x := x.spurious) (by simp only [bits, hw]; omega)]

theorem grantOfWords_toList (x : Vector Word 8) : grantOfWords x.toList = some x := by
  rw [grantOfWords, dif_pos (Vector.length_toList ..)]
  rfl

theorem routeOfWords_words (x : Route) : routeOfWords x.words = some x := by
  have := bitVal_lt x.masked
  have hw : (packFields [(bitVal x.masked, 0), (x.priority, 4), (x.vector, 8), (x.destination, 16)]).toNat =
      bitVal x.masked + 2 ^ 4 * x.priority + 2 ^ 8 * x.vector + 2 ^ 16 * x.destination := by
    rw [packFields_toNat]
    simp only [packSum_cons, packSum_nil]
    omega
  rw [Route.words, routeOfWords, bit_of_bits (b := x.masked) (by simp only [bits, hw]; omega), ofNat_bits (x := x.priority) (by simp only [bits, hw]; omega),
    ofNat_bits (x := x.vector) (by simp only [bits, hw]; omega), ofNat_bits (x := x.destination) (by simp only [bits, hw]; omega)]

theorem descriptorOfWords_words (x : Descriptor) : descriptorOfWords x.words = some x := by
  have := bitVal_lt x.present; have := bitVal_lt (x.kind == .untracked)
  have hw : (packFields [(bitVal x.present, 0), (bitVal (x.kind == .untracked), 1), (x.messageLevel, 4)]).toNat =
      bitVal x.present + 2 * bitVal (x.kind == .untracked) + 2 ^ 4 * x.messageLevel := by
    rw [packFields_toNat]
    simp only [packSum_cons, packSum_nil]
    omega
  rw [Descriptor.words, descriptorOfWords, bit_of_bits (b := x.present) (by simp only [bits, hw]; omega),
    bit_of_bits (b := x.kind == .untracked) (by simp only [bits, hw]; omega), ofNat_bits (x := x.messageLevel) (by simp only [bits, hw]; omega),
    ite_beq_eq x.kind.untracked_or_tracked]

theorem limitOfWords_of_le {n : Nat} (h : n ≤ 256) : limitOfWords [BitVec.ofNat 32 n] = some n := by
  have hn : (BitVec.ofNat 32 n).toNat = n := by
    rw [BitVec.toNat_ofNat]
    exact Nat.mod_eq_of_lt (by omega)
  rw [limitOfWords, hn, if_pos h]

theorem policyOfWords_words {p : BayPolicy} (free : Level) (hready0 : 1 ≤ p.readyTimeout) (hready : p.readyTimeout ≤ 1000) (hexch0 : 1 ≤ p.exchangeTimeout)
    (hexch : p.exchangeTimeout ≤ 255) (hpoll : p.pollOverride < 2 ^ 16) : policyOfWords (p.words free) = some (p, free) := by
  have := bitVal_lt (p.power == .auto); have := p.sense.isLt
  have hw0 : (packFields [(bitVal (p.power == .auto), 0), (free, 1), (p.readyTimeout, 4), (p.exchangeTimeout, 16)]).toNat =
      bitVal (p.power == .auto) + 2 * free + 2 ^ 4 * p.readyTimeout + 2 ^ 16 * p.exchangeTimeout := by
    rw [packFields_toNat]
    simp only [packSum_cons, packSum_nil]
    omega
  have hw1 : (packFields [(p.pollOverride, 0), (p.sense.toNat, 16)]).toNat = p.pollOverride + 2 ^ 16 * p.sense.toNat := by
    rw [packFields_toNat]
    simp only [packSum_cons, packSum_nil]
    omega
  have hreadyBits : bits (packFields [(bitVal (p.power == .auto), 0), (free, 1), (p.readyTimeout, 4), (p.exchangeTimeout, 16)]) 4 10 = p.readyTimeout := by
    simp only [bits, hw0]; omega
  have hexchBits : bits (packFields [(bitVal (p.power == .auto), 0), (free, 1), (p.readyTimeout, 4), (p.exchangeTimeout, 16)]) 16 8 = p.exchangeTimeout := by
    simp only [bits, hw0]; omega
  have hpollBits : bits (packFields [(p.pollOverride, 0), (p.sense.toNat, 16)]) 0 16 = p.pollOverride := by
    simp only [bits, hw1]; omega
  have haccepted : (p.readyTimeout == 0 || decide (1000 < p.readyTimeout) || p.exchangeTimeout == 0) = false := by
    simp only [Bool.or_eq_false_iff, beq_eq_false_iff_ne, decide_eq_false_iff_not]
    omega
  rw [BayPolicy.words, policyOfWords, hreadyBits, hexchBits]
  rw [haccepted, hpollBits, bit_of_bits (b := p.power == .auto) (by simp only [bits, hw0]; omega), ofNat_bits (x := free) (by simp only [bits, hw0]; omega),
    byte_of_bits (x := p.sense) (by simp only [bits, hw1]; omega), ite_beq_eq p.power.auto_or_manual]
  rfl

/-- Settles O27, a record at a time. -/
theorem writtenRecordsReadBack : Obligations.WrittenRecordsReadBack :=
  ⟨fun _ => apertureOfWords_words, rfl, rfl, domainOfWords_words, grantOfWords_toList, routeOfWords_words, descriptorOfWords_words, fun _ => limitOfWords_of_le,
    fun _ free => policyOfWords_words free⟩

end Sys2Proof.Machine

/-! The records of the control space as CTL_READ answers them (Chapter 10): the words of each group, and the bytes and flags that lie in words. -/

namespace Sys2Proof.Machine

/-! ### Bytes in words (R165) -/

theorem bytesOfWords_get (ws : List Word) (j : Nat) : (bytesOfWords ws)[j]? = ws[j / 4]?.map fun w => wordByte w (j % 4) := by
  induction ws generalizing j with
  | nil => rfl
  | cons w ws ih =>
    match j with
    | 0 | 1 | 2 | 3 => rfl
    | j + 4 =>
      have hdiv : (j + 4) / 4 = j / 4 + 1 := by omega
      have hmod : (j + 4) % 4 = j % 4 := by omega
      rw [hdiv, hmod]
      exact ih j

theorem bytesOfWords_wordOfBytes (a b c d : Byte) (ws : List Word) : bytesOfWords (wordOfBytes a b c d :: ws) = a :: b :: c :: d :: bytesOfWords ws := by
  obtain ⟨ha, hb, hc, hd⟩ := wordByte_wordOfBytes a b c d
  rw [bytesOfWords, ha, hb, hc, hd]

theorem bytesOfWords_wordsOfBytes (bs : List Byte) : bytesOfWords (wordsOfBytes bs) = bs ++ List.replicate ((4 - bs.length % 4) % 4) 0 := by
  induction bs using wordsOfBytes.induct with
  | case1 => rfl
  | case2 a => exact bytesOfWords_wordOfBytes a 0 0 0 []
  | case3 a b => exact bytesOfWords_wordOfBytes a b 0 0 []
  | case4 a b c => exact bytesOfWords_wordOfBytes a b c 0 []
  | case5 a b c d rest ih =>
    have hlen : (a :: b :: c :: d :: rest).length % 4 = rest.length % 4 := by
      show (rest.length + 4) % 4 = _
      omega
    rw [hlen, wordsOfBytes, bytesOfWords_wordOfBytes, ih]
    rfl

theorem wordsOfBytes_length (bs : List Byte) : (wordsOfBytes bs).length = (bs.length + 3) / 4 := by
  induction bs using wordsOfBytes.induct with
  | case1 | case2 | case3 | case4 => simp only [wordsOfBytes, List.length_cons, List.length_nil]
  | case5 a b c d rest ih =>
    rw [wordsOfBytes, List.length_cons, ih]
    simp only [List.length_cons]
    omega

/-! ### A word of flags (R156) -/

theorem packSum_append (fs gs : List (Nat × Nat)) : packSum (fs ++ gs) = packSum fs + packSum gs := by
  induction fs with
  | nil => exact (Nat.zero_add _).symm
  | cons f fs ih =>
    obtain ⟨v, lo⟩ := f
    rw [List.cons_append, packSum_cons, packSum_cons, ih, Nat.add_assoc]

/-- The number whose bit `i` is `f i`, for the bits below `n`. -/
def flagSum (f : Nat → Bool) (n : Nat) : Nat := packSum ((List.range n).map fun i => (bitVal (f i), i))

theorem flagSum_succ (f : Nat → Bool) (n : Nat) : flagSum f (n + 1) = 2 ^ n * bitVal (f n) + flagSum f n := by
  rw [flagSum, List.range_succ, List.map_append, packSum_append, flagSum]
  show _ + (bitVal (f n) * 2 ^ n + 0) = _
  rw [Nat.add_zero, Nat.mul_comm, Nat.add_comm]

theorem flagSum_lt (f : Nat → Bool) (n : Nat) : flagSum f n < 2 ^ n := by
  induction n with
  | zero => exact Nat.one_pos
  | succ n ih =>
    have hbit := bitVal_lt (f n)
    have hle : 2 ^ n * bitVal (f n) ≤ 2 ^ n * 1 := Nat.mul_le_mul_left _ (by omega)
    rw [flagSum_succ, Nat.pow_succ]
    omega

theorem flagSum_testBit (f : Nat → Bool) (n i : Nat) : (flagSum f n).testBit i = (decide (i < n) && f i) := by
  induction n with
  | zero => rw [flagSum, List.range_zero, List.map_nil, packSum_nil, Nat.zero_testBit]; rfl
  | succ n ih =>
    rw [flagSum_succ, Nat.testBit_two_pow_mul_add _ (flagSum_lt f n), ih]
    split
    · next h => rw [decide_eq_true h, decide_eq_true (Nat.lt_succ_of_lt h)]
    · next h =>
      by_cases hi : i = n
      · subst hi
        rw [Nat.sub_self, decide_eq_true (Nat.lt_succ_self i)]
        cases f i <;> rfl
      · have hfar : ¬ i < n + 1 := by omega
        have hsmall : bitVal (f n) < 2 ^ (i - n) := Nat.lt_of_lt_of_le (bitVal_lt _) (Nat.pow_le_pow_right (n := 2) (by decide) (by omega : 1 ≤ i - n))
        rw [decide_eq_false hfar, Bool.false_and, Nat.testBit_lt_two_pow hsmall]

theorem flagWord_toNat (f : Nat → Bool) : (flagWord f).toNat = flagSum f 32 := by
  rw [flagWord, packFields_toNat]
  exact Nat.mod_eq_of_lt (flagSum_lt f 32)

theorem flagWord_bit (f : Nat → Bool) {i : Nat} (h : i < 32) : (flagWord f).getLsbD i = f i := by
  rw [← BitVec.testBit_toNat, flagWord_toNat, flagSum_testBit, decide_eq_true h, Bool.true_and]

/-- A word of flags whose flags from `n` on are clear is below `2 ^ n`. -/
theorem flagWord_lt {f : Nat → Bool} {n : Nat} (h : ∀ i, n ≤ i → f i = false) : (flagWord f).toNat < 2 ^ n := by
  rw [flagWord_toNat]
  refine Nat.lt_pow_two_of_testBit _ fun i hi => ?_
  rw [flagSum_testBit, h i hi, Bool.and_false]

/-! ### The words of each record -/

theorem Fin.ofNat_val {n : Nat} [NeZero n] (x : Fin n) : Fin.ofNat n x.val = x := Fin.ext (Nat.mod_eq_of_lt x.isLt)

theorem bitVal_mul_toNat (b : Bool) (n : Nat) : bitVal b * n = b.toNat * n := by rw [bitVal_eq_toNat]

theorem bitVal_beq_mul {α : Type} [DecidableEq α] (x y : α) (n : Nat) : bitVal (x == y) * n = if x = y then n else 0 := by
  by_cases h : x = y
  · rw [if_pos h, beq_iff_eq.2 h]; exact Nat.one_mul n
  · rw [if_neg h, beq_eq_false_iff_ne.2 h]; exact Nat.zero_mul n

theorem Width.code_eq (w : Width) : w.code = match w with | .w8 => 0 | .w16 => 1 | .w32 => 2 := by cases w <;> rfl

theorem Aperture.attributes_eq (a : Aperture) : a.attributes = BitVec.ofNat 32 (a.valid.toNat + (if a.kind = .port then 2 else 0) + 2 ^ 2 * a.bay
    + 2 ^ 5 * (match a.width with | .w8 => 0 | .w16 => 1 | .w32 => 2) + (if a.policy = .close then 2 ^ 7 else 0) + 2 ^ 8 * a.posting.toNat
    + (if a.ordering = .relaxed then 2 ^ 9 else 0) + 2 ^ 10 * a.writeProtect.toNat + 2 ^ 11 * a.auxGated.toNat + 2 ^ 12 * a.level
    + 2 ^ 16 * a.mask.toNat) := by
  rw [Aperture.attributes, packFields_eq, ← Width.code_eq]
  simp only [packSum_cons, packSum_nil, bitVal_beq_mul]
  simp only [bitVal_mul_toNat, Nat.pow_one]
  congr 1
  omega

theorem DomainRec.words_eq (x : DomainRec) : x.words = [BitVec.ofNat 32 (x.enabled.toNat + 2 ^ 4 * x.level + 2 ^ 8 * x.spurious)] := by
  rw [DomainRec.words, packFields_eq]
  simp only [packSum_cons, packSum_nil, bitVal_mul_toNat]
  congr 2
  omega

theorem Route.words_eq (x : Route) :
    x.words = [BitVec.ofNat 32 (x.masked.toNat + 2 ^ 4 * x.priority + 2 ^ 8 * x.vector + 2 ^ 16 * x.destination)] := by
  rw [Route.words, packFields_eq]
  simp only [packSum_cons, packSum_nil, bitVal_mul_toNat]
  congr 2
  omega

theorem Descriptor.words_eq (x : Descriptor) :
    x.words = [BitVec.ofNat 32 (x.present.toNat + (if x.kind = .untracked then 2 else 0) + 2 ^ 4 * x.messageLevel), x.handler] := by
  rw [Descriptor.words, packFields_eq]
  simp only [packSum_cons, packSum_nil, bitVal_beq_mul]
  simp only [bitVal_mul_toNat, Nat.pow_one]
  congr 2
  omega

theorem BayPolicy.words_eq (p : BayPolicy) (free : Level) : p.words free =
    [BitVec.ofNat 32 ((if p.power = .auto then 1 else 0) + 2 * free + 2 ^ 4 * p.readyTimeout + 2 ^ 16 * p.exchangeTimeout),
      BitVec.ofNat 32 (p.pollOverride + 2 ^ 16 * p.sense.toNat)] := by
  have h0 : packSum [(bitVal (p.power == .auto), 0), (free.val, 1), (p.readyTimeout, 4), (p.exchangeTimeout, 16)] =
      (if p.power = .auto then 1 else 0) + 2 * free + 2 ^ 4 * p.readyTimeout + 2 ^ 16 * p.exchangeTimeout := by
    simp only [packSum_cons, packSum_nil, bitVal_beq_mul, Nat.pow_zero]
    omega
  have h1 : packSum [(p.pollOverride, 0), (p.sense.toNat, 16)] = p.pollOverride + 2 ^ 16 * p.sense.toNat := by
    simp only [packSum_cons, packSum_nil]
    omega
  rw [BayPolicy.words, packFields_eq, packFields_eq, h0, h1]

/-! ### The records by group and index -/

theorem State.readRecord_aperture (s : State) (i : Fin 32) : s.readRecord 1 i = s.tables.apertures[i].words := by
  show s.tables.apertures[Fin.ofNat 32 i.val].words = _
  simp only [Fin.ofNat_val]

theorem State.readRecord_domain (s : State) (i : DomainId) : s.readRecord 2 i = s.tables.domains[i].words := by
  show s.tables.domains[Fin.ofNat 8 i.val].words = _
  simp only [Fin.ofNat_val]

theorem State.readRecord_grant (s : State) (i : Fin 64) : s.readRecord 3 i = s.tables.grants[i].toList := by
  show s.tables.grants[Fin.ofNat 64 i.val].toList = _
  simp only [Fin.ofNat_val]

theorem State.readRecord_route (s : State) (i : Fin 68) : s.readRecord 4 i = s.events.routes[i].words := by
  show s.events.routes[Fin.ofNat 68 i.val].words = _
  simp only [Fin.ofNat_val]

theorem State.readRecord_descriptor (s : State) (i : Fin 256) : s.readRecord 5 i = s.events.descriptors[i].words := by
  show s.events.descriptors[Fin.ofNat 256 i.val].words = _
  simp only [Fin.ofNat_val]

theorem State.readRecord_policy (s : State) (i : BayId) : s.readRecord 7 i = s.bays[i].policy.words s.tables.freeLevels[i] := by
  show s.bays[Fin.ofNat 8 i.val].policy.words s.tables.freeLevels[Fin.ofNat 8 i.val] = _
  simp only [Fin.ofNat_val]

theorem State.readRecord_bayStatus (s : State) (b : BayId) : s.readRecord 8 b = s.bays[b].statusWords := by
  show s.bays[Fin.ofNat 8 b.val].statusWords = _
  simp only [Fin.ofNat_val]

theorem State.readRecord_bayIdentity (s : State) (b : BayId) : s.readRecord 9 b = s.bays[b].identityWords := by
  show s.bays[Fin.ofNat 8 b.val].identityWords = _
  simp only [Fin.ofNat_val]

theorem State.readRecord_domainStatus (s : State) (d : DomainId) : s.readRecord 10 d = s.domainStatusWords d := by
  show s.domainStatusWords (Fin.ofNat 8 d.val) = _
  rw [Fin.ofNat_val]

theorem State.readRecord_eventStatus (s : State) (d : DomainId) : s.readRecord 11 d = s.events.delivery[d].words := by
  show s.events.delivery[Fin.ofNat 8 d.val].words = _
  simp only [Fin.ofNat_val]

theorem Bay.identityWords_length (b : Bay) : b.identityWords.length = 9 := by
  unfold Bay.identityWords
  split
  · next r _ => rw [List.length_cons, wordsOfBytes_length, Vector.length_toList]
  · rfl

theorem captureWords_length (c : Option CaptureRecord) : (captureWords c).length = 3 := by cases c <;> rfl

/-- A record has the length that Table 10-1 gives its group. -/
theorem State.readRecord_length (s : State) (i : Nat) {row : Nat × Bool × Nat × Nat} (h : row ∈ recordGroups) :
    (s.readRecord row.1 i).length = row.2.2.2 := by
  simp only [recordGroups, List.cons_append, List.nil_append, List.mem_cons, List.not_mem_nil, or_false] at h
  rcases h with rfl | rfl | rfl | rfl | rfl | rfl | rfl | rfl | rfl | rfl | rfl | rfl | rfl | rfl
  case inr.inr.inl => exact Vector.length_toList ..
  case inr.inr.inr.inr.inr.inr.inr.inr.inl => exact Bay.identityWords_length _
  case inr.inr.inr.inr.inr.inr.inr.inr.inr.inr.inl => exact congrArg (· + 1) (takePad_length ..)
  case inr.inr.inr.inr.inr.inr.inr.inr.inr.inr.inr.inr.inl => exact captureWords_length _
  all_goals rfl

/-- Settles O24: the record's layout group by group, and the answer with it. -/
theorem ctlReadReturnsRecord : Obligations.CtlReadReturnsRecord := by
  intro s t hn hk he hl hnames
  dsimp only
  have hreadable := (readable_iff t.request).2 hnames
  have hexec := exec_ctlRead_of_readable hn hk he hl hreadable
  obtain ⟨row, hrow, hgroup, -⟩ := hnames
  refine ⟨⟨row, hrow, hgroup.symm, hgroup ▸ State.readRecord_length _ _ hrow⟩, ?_, ?_, ?_, ?_, ?_, ?_, ?_, _, hexec, ?_⟩
  · rintro i ⟨hg, hi⟩
    rw [hg, hi, State.readRecord_aperture, Aperture.words_eq, Aperture.attributes_eq]
    rfl
  · rintro i ⟨hg, hi⟩
    rw [hg, hi, State.readRecord_domain, DomainRec.words_eq]
    rfl
  · rintro i ⟨hg, hi⟩
    rw [hg, hi, State.readRecord_grant]
    rfl
  · rintro i ⟨hg, hi⟩
    rw [hg, hi, State.readRecord_route, Route.words_eq]
    rfl
  · rintro i ⟨hg, hi⟩
    rw [hg, hi, State.readRecord_descriptor, Descriptor.words_eq]
    rfl
  · rintro ⟨hg, hi⟩
    rw [hg]
    rfl
  · rintro i ⟨hg, hi⟩
    rw [hg, hi, State.readRecord_policy, BayPolicy.words_eq]
    rfl
  · refine ⟨State.served_finish rfl rfl rfl rfl fun _ => ⟨rfl, rfl, rfl⟩, State.ctlRead_answered hk _, ?_, State.finish_bays .., State.finish_events ..,
      State.finish_capture ..⟩
    unfold State.TablesKept
    rw [State.finish_tables]
    exact s.takeRequest_tablesKept t

end Sys2Proof.Machine

/-! The read-only records (10.1, Tables 10-3 to 10-6): their words, and what each bit of them holds. -/

namespace Sys2Proof.Machine

/-! ### A bay (Tables 10-3, 10-4) -/

theorem Lane.word_eq (l : Lane) : l.word = BitVec.ofNat 32 (l.state.code + 2 ^ 2 * l.dwellExpired.toNat + 2 ^ 3 * l.releasePending.toNat
    + 2 ^ 4 * l.pinned.toNat + 2 ^ 5 * l.page.isSome.toNat + 2 ^ 16 * l.page.getD 0) := by
  rw [Lane.word, packFields_eq]
  simp only [packSum_cons, packSum_nil, bitVal_mul_toNat]
  congr 1
  omega

/-- The first word of BAY_STATUS. -/
theorem Bay.statusWords_eq (x : Bay) : x.statusWords =
    [BitVec.ofNat 32 (x.state.code + 2 ^ 4 * (if x.depth = some .deep then 1 else 0) + 2 ^ 5 * x.cause.code + 2 ^ 8 * x.mainRail.toNat
        + 2 ^ 9 * x.auxRail.toNat + 2 ^ 10 * x.auxWanted.toNat + 2 ^ 11 * x.drainRequested.toNat + 2 ^ 12 * x.owed + 2 ^ 16 * x.timeouts
        + 2 ^ 18 * x.queue.length),
      BitVec.ofNat 32 (x.lastStatus.ready.toNat + 2 * x.lastStatus.attention.toNat + 4 * x.lastStatus.supplyWarn.toNat
        + 8 * x.lastStatus.supplyFail.toNat + 2 ^ 8 * x.lastStatus.code.toNat),
      x.lanes[0].word, x.lanes[1].word, x.lanes[2].word, x.lanes[3].word] := by
  have hdepth : bitVal (x.depth == some .deep) = if x.depth = some .deep then 1 else 0 := by
    by_cases h : x.depth = some .deep
    · rw [if_pos h, h]; rfl
    · rw [if_neg h, beq_eq_false_iff_ne.2 h]; rfl
  have h0 : packSum [(x.state.code, 0), (bitVal (x.depth == some .deep), 4), (x.cause.code, 5), (bitVal x.mainRail, 8), (bitVal x.auxRail, 9),
      (bitVal x.auxWanted, 10), (bitVal x.drainRequested, 11), (x.owed, 12), (x.timeouts, 16), (x.queue.length, 18)] =
      x.state.code + 2 ^ 4 * (if x.depth = some .deep then 1 else 0) + 2 ^ 5 * x.cause.code + 2 ^ 8 * x.mainRail.toNat
        + 2 ^ 9 * x.auxRail.toNat + 2 ^ 10 * x.auxWanted.toNat + 2 ^ 11 * x.drainRequested.toNat + 2 ^ 12 * x.owed + 2 ^ 16 * x.timeouts
        + 2 ^ 18 * x.queue.length := by
    simp only [packSum_cons, packSum_nil, hdepth, bitVal_eq_toNat]
    omega
  have h1 : packSum [(bitVal x.lastStatus.ready, 0), (bitVal x.lastStatus.attention, 1), (bitVal x.lastStatus.supplyWarn, 2),
      (bitVal x.lastStatus.supplyFail, 3), (x.lastStatus.code.toNat, 8)] =
      x.lastStatus.ready.toNat + 2 * x.lastStatus.attention.toNat + 4 * x.lastStatus.supplyWarn.toNat
        + 8 * x.lastStatus.supplyFail.toNat + 2 ^ 8 * x.lastStatus.code.toNat := by
    simp only [packSum_cons, packSum_nil, bitVal_eq_toNat]
    omega
  rw [Bay.statusWords, packFields_eq, packFields_eq, h0, h1]

theorem Bay.identityWords_of_some {b : Bay} {r : IdentityRecord} (h : b.identity = some r) : b.identityWords = 1 :: wordsOfBytes r.toList := by
  rw [Bay.identityWords, h]
  rfl

/-- The bytes of an identity record in the words of BAY_IDENTITY. -/
theorem wordsOfBytes_byte (r : IdentityRecord) {j : Fin 32} {w : Word} (h : (wordsOfBytes r.toList)[j.val / 4]? = some w) :
    wordByte w (j.val % 4) = r[j] := by
  have hget := bytesOfWords_get (wordsOfBytes r.toList) j
  have hbytes : bytesOfWords (wordsOfBytes r.toList) = r.toList := by
    rw [bytesOfWords_wordsOfBytes, Vector.length_toList]
    exact List.append_nil _
  rw [h, hbytes] at hget
  have hr : r.toList[j.val]? = some r[j] := by simp
  exact (Option.some.inj (hr.symm.trans hget)).symm

/-! ### A domain and the event unit (Table 10-4) -/

theorem State.domainStatusWords_eq (s : State) (d : DomainId) : s.domainStatusWords d = [BitVec.ofNat 32 (s.uplink.intake[d].length
    + 2 ^ 8 * (s.tracker.taken.filter fun e => s.tracker.entries[e].domain == d && s.tracker.entries[e].state == .held).length
    + 2 ^ 16 * (s.tracker.postedSet d).length + 2 ^ 24 * s.tracker.postedFault[d].toNat)] := by
  rw [State.domainStatusWords, packFields_eq]
  simp only [packSum_cons, packSum_nil, bitVal_eq_toNat]
  congr 2
  omega

theorem InService.word_eq (x : InService) : x.word = BitVec.ofNat 32 (x.vector.val + 2 ^ 8 * x.source.val + 2 ^ 16 * x.priority.val) := by
  rw [InService.word, packFields_eq]
  simp only [packSum_cons, packSum_nil]
  congr 1
  omega

theorem takePad_get {α : Type} {n : Nat} (pad : α) (l : List α) {j : Nat} (h : j < n) : (takePad n pad l)[j]? = some (l.getD j pad) := by
  rw [takePad, List.getElem?_map, List.getElem?_range h]
  rfl

theorem Delivery.words_head (y : Delivery) : y.words = BitVec.ofNat 32 (y.threshold.val + 2 ^ 8 * y.signal.toNat + 2 ^ 16 * y.inService.length)
    :: takePad 15 0 (y.inService.reverse.map InService.word) := by
  rw [Delivery.words, packFields_eq]
  simp only [packSum_cons, packSum_nil, bitVal_eq_toNat]
  congr 2
  omega

theorem Delivery.words_slot (y : Delivery) (j : Fin 15) : (takePad 15 0 (y.inService.reverse.map InService.word))[j.val]? =
    some (match y.inService.reverse[j.val]? with
      | some x => BitVec.ofNat 32 (x.vector.val + 2 ^ 8 * x.source.val + 2 ^ 16 * x.priority.val)
      | none => 0) := by
  rw [takePad_get _ _ j.isLt, List.getD_eq_getElem?_getD, List.getElem?_map]
  cases y.inService.reverse[j.val]? with
  | none => rfl
  | some x => exact congrArg some x.word_eq

/-! ### The pending latches (R156) -/

theorem EventUnit.sourceBit_of_bay (u : EventUnit) (n : Fin 64) : u.sourceBit n = u.bayPending[n] := by
  rw [EventUnit.sourceBit, if_pos n.isLt]
  simp only [Fin.ofNat_val]

theorem EventUnit.sourceBit_of_channel (u : EventUnit) (c : Fin 4) : u.sourceBit (64 + c.val) = true ↔ ∃ e, u.isPending (.msg c e) = true := by
  have hbay : ¬ 64 + c.val < 64 := by omega
  have hchannel : 64 + c.val < 68 := by omega
  have hc : Fin.ofNat 4 (64 + c.val) = c := Fin.ext (by show (64 + c.val) % 4 = c.val; omega)
  rw [EventUnit.sourceBit, if_neg hbay, if_pos hchannel, hc, List.any_eq_true]
  exact ⟨fun ⟨e, _, he⟩ => ⟨e, he⟩, fun ⟨e, he⟩ => ⟨e, mem_allDomains e, he⟩⟩

theorem EventUnit.sourceBit_beyond (u : EventUnit) {n : Nat} (h : 68 ≤ n) : u.sourceBit n = false := by
  rw [EventUnit.sourceBit, if_neg (by omega), if_neg (by omega)]

/-- The words of EVENT_PENDING, bit by bit. -/
theorem EventUnit.pendingWords_bits (u : EventUnit) : ∃ w0 w1 w2 w3 : Word, u.pendingWords = [w0, w1, w2, w3]
    ∧ (∀ n : Fin 64, (if n.val < 32 then w0 else w1).getLsbD (n.val % 32) = u.bayPending[n])
    ∧ (∀ c : Fin 4, w2.getLsbD c = true ↔ ∃ e, u.isPending (.msg c e) = true) ∧ w2.toNat < 16
    ∧ ∀ (c : Fin 4) (e : DomainId), w3.getLsbD (8 * c.val + e.val) = u.isPending (.msg c e) := by
  refine ⟨_, _, _, _, rfl, fun n => ?_, fun c => ?_, ?_, fun c e => ?_⟩
  · have hmod : n.val % 32 < 32 := Nat.mod_lt _ (by decide)
    split
    · next h => rw [flagWord_bit _ hmod, Nat.mod_eq_of_lt h, EventUnit.sourceBit_of_bay]
    · next h =>
      have hn : 32 + n.val % 32 = n.val := by omega
      rw [flagWord_bit _ hmod, hn, EventUnit.sourceBit_of_bay]
  · rw [flagWord_bit _ (by omega)]
    exact u.sourceBit_of_channel c
  · exact flagWord_lt (n := 4) fun i hi => u.sourceBit_beyond (by omega)
  · have hi : Fin.ofNat 32 (8 * c.val + e.val) = msgIndex c e := Fin.ext (Nat.mod_eq_of_lt (by omega))
    rw [flagWord_bit _ (by omega)]
    simp only [hi]
    rfl

/-! ### The capture (Tables 10-5, 10-6) -/

theorem whoFields_eq (o : Option (DomainId × Byte)) :
    bitVal o.isSome * 2 ^ 6 + (o.getD (0, 0)).1.val * 2 ^ 7 = match o with | some w => 2 ^ 6 + 2 ^ 7 * w.1.val | none => 0 := by
  cases o with
  | none => rfl
  | some w => simp only [Option.isSome_some, Option.getD_some, bitVal, if_true]; omega

theorem bayFields_eq (o : Option BayId) :
    bitVal o.isSome * 2 ^ 10 + (o.getD 0).val * 2 ^ 11 = match o with | some b => 2 ^ 10 + 2 ^ 11 * b.val | none => 0 := by
  cases o with
  | none => rfl
  | some b => simp only [Option.isSome_some, Option.getD_some, bitVal, if_true]; omega

theorem placeKnown_eq (o : Option (Fin 32 × Nat)) : bitVal o.isSome * 2 ^ 14 = match o with | some _ => 2 ^ 14 | none => 0 := by
  cases o with
  | none => rfl
  | some x => simp only [Option.isSome_some, bitVal, if_true, Nat.one_mul]

theorem tagField_eq (o : Option (DomainId × Byte)) : (o.getD (0, 0)).2.toNat = match o with | some w => w.2.toNat | none => 0 := by cases o <;> rfl

theorem apertureField_eq (o : Option (Fin 32 × Nat)) : (o.getD (0, 0)).1.val * 2 ^ 8 = match o with | some x => 2 ^ 8 * x.1.val | none => 0 := by
  cases o with
  | none => exact Nat.zero_mul _
  | some x => exact Nat.mul_comm ..

theorem addressField_eq (o : Option (Fin 32 × Nat)) : (o.getD (0, 0)).2 = match o with | some x => x.2 | none => 0 := by cases o <;> rfl

theorem captureWords_some (c : CaptureRecord) : captureWords (some c) =
    [BitVec.ofNat 32 (1 + 2 * c.offer.kind.code
        + (match c.offer.who with | some w => 2 ^ 6 + 2 ^ 7 * w.1.val | none => 0)
        + (match c.offer.bay with | some b => 2 ^ 10 + 2 ^ 11 * b.val | none => 0)
        + (match c.offer.xlat with | some _ => 2 ^ 14 | none => 0) + 2 ^ 16 * c.more),
      BitVec.ofNat 32 ((match c.offer.who with | some w => w.2.toNat | none => 0) + (match c.offer.xlat with | some x => 2 ^ 8 * x.1.val | none => 0)),
      BitVec.ofNat 32 (match c.offer.xlat with | some x => x.2 | none => 0)] := by
  obtain ⟨⟨kind, who, bay, xlat⟩, more⟩ := c
  have h0 : packSum [(1, 0), (kind.code, 1), (bitVal who.isSome, 6), ((who.getD (0, 0)).1.val, 7), (bitVal bay.isSome, 10), ((bay.getD 0).val, 11),
      (bitVal xlat.isSome, 14), (more, 16)] = 1 + 2 * kind.code + (bitVal who.isSome * 2 ^ 6 + (who.getD (0, 0)).1.val * 2 ^ 7)
        + (bitVal bay.isSome * 2 ^ 10 + (bay.getD 0).val * 2 ^ 11) + bitVal xlat.isSome * 2 ^ 14 + 2 ^ 16 * more := by
    simp only [packSum_cons, packSum_nil]
    omega
  have h1 : packSum [((who.getD (0, 0)).2.toNat, 0), ((xlat.getD (0, 0)).1.val, 8)] = (who.getD (0, 0)).2.toNat + (xlat.getD (0, 0)).1.val * 2 ^ 8 := by
    simp only [packSum_cons, packSum_nil]
    omega
  rw [captureWords]
  dsimp only
  rw [packFields_eq, packFields_eq, h0, h1, whoFields_eq, bayFields_eq, placeKnown_eq, tagField_eq, apertureField_eq, addressField_eq]

/-! ### The obligation -/

/-- Settles O26: the codes by computation, and each record by the layout of its words. -/
theorem readOnlyRecordsAreLaidOut : Obligations.ReadOnlyRecordsAreLaidOut := by
  refine ⟨by decide, by decide, by decide, by decide, fun s => ⟨fun b => ?_, fun b => ⟨fun h => ?_, fun r h => ?_⟩, fun d => ?_, fun d => ?_, ?_, fun h => ?_, fun c h => ?_⟩⟩
  · refine ⟨_, _, _, _, _, _, (s.readRecord_bayStatus b).trans s.bays[b].statusWords_eq, rfl, rfl, fun l => ?_⟩
    have hword : [s.bays[b].lanes[0].word, s.bays[b].lanes[1].word, s.bays[b].lanes[2].word, s.bays[b].lanes[3].word][l.val]? =
        some s.bays[b].lanes[l].word := by
      match l with
      | 0 | 1 | 2 | 3 => rfl
    rw [hword, Lane.word_eq]
  · rw [State.readRecord_bayIdentity, Bay.identityWords, h]
  · rw [State.readRecord_bayIdentity, Bay.identityWords_of_some h]
    exact ⟨_, rfl, by rw [wordsOfBytes_length, Vector.length_toList], fun j w => wordsOfBytes_byte r⟩
  · rw [State.readRecord_domainStatus, State.domainStatusWords_eq]
  · rw [State.readRecord_eventStatus, Delivery.words_head]
    exact ⟨_, rfl, takePad_length .., Delivery.words_slot _⟩
  · exact s.events.pendingWords_bits
  · exact congrArg captureWords h
  · exact (congrArg captureWords h).trans (captureWords_some c)

end Sys2Proof.Machine

/-! The CTL_WRITEs (10.1 and the chapters of the tables written): each replaces the record it names, and answers. -/

namespace Sys2Proof.Machine

/-! ### A CTL_WRITE past the checks of R166 -/

theorem State.TakesWrite.carriesRecord {s : State} {t : Taken} {g i : Nat} (h : s.TakesWrite t g i) {indices length : Nat}
    (hrow : (g, true, indices, length) ∈ recordGroups) (hi : i < indices) (hlen : t.request.payload.length = length) : t.request.CarriesRecord := by
  obtain ⟨-, -, hg, hindex, -⟩ := h
  exact ⟨_, hrow, hg, rfl, hindex ▸ hi, hlen⟩

/-- A write of a record of its length is answered OK with what it applies, and BAD_RECORD where the record fails a condition of its group. -/
theorem State.TakesWrite.serveWrite {s : State} {t : Taken} {g i : Nat} (h : s.TakesWrite t g i) (hw : t.request.CarriesRecord)
    (apply : Request → State → Option State) :
    (∀ v, apply t.request (s.takeRequest t) = some v → s.serveWrite g apply = v.finishWith t .ok)
      ∧ (apply t.request (s.takeRequest t) = none → s.serveWrite g apply = (s.takeRequest t).finishWith t .badRecord) := by
  obtain ⟨hn, hk, hg, -, he, hl⟩ := h
  have hon : (s.takeRequest t).enabled t.request.domain = true := he
  have hlevel : (s.takeRequest t).tables.domains[t.request.domain].level = 0 := hl
  have hwant : (t.request.kind == .ctlWrite && t.request.group == g) = true := by rw [hk, hg, beq_self_eq_true, beq_self_eq_true]; rfl
  have hserve : s.serveWrite g apply = match apply t.request (s.takeRequest t) with
      | some v => v.finishWith t .ok
      | none => (s.takeRequest t).finishWith t .badRecord := by
    rw [State.serveWrite, State.serve_of _ _ s t hn hwant, State.admitWrite, hon, if_pos hlevel, if_pos ((writable_iff _).2 hw)]
    rfl
  exact ⟨fun v hv => by rw [hserve, hv], fun hv => by rw [hserve, hv]⟩

/-- The end of a CTL_WRITE whose effect is on the tables, the bays and the event unit. -/
theorem State.written_finishWith {s v : State} {t : Taken} (st : Status) (hup : v.uplink = (s.takeRequest t).uplink)
    (hls : v.tables.lastServed = t.domain) (htr : v.tracker = (s.takeRequest t).tracker) (hp : v.pending = s.pending) :
    s.Served t (v.finishWith t st) ∧ s.AnsweredWith t st {} 0 [] (v.finishWith t st) := by
  have hanswered : s.AnsweredWith t st {} 0 (if t.request.kind.returnsBuffer then t.request.writeBuffer else []) (v.finishWith t st) :=
    State.answered_finish htr id rfl rfl
  rw [Request.writeBuffer_of_returnsBuffer] at hanswered
  exact ⟨State.served_finish hup hls htr hp fun _ => ⟨rfl, rfl, rfl⟩, hanswered⟩

theorem State.writeAnswered_finishWith {s : State} {t : Taken} (st : Status) (tables : AdmissionUnit)
    (bays : Vector Bay 8) (events : EventUnit) :
    s.WriteAnswered t st tables bays events
      (State.finishWith t st { s.takeRequest t with tables := { tables with lastServed := t.domain }, bays := bays, events := events }) := by
  obtain ⟨hserved, hanswered⟩ := State.written_finishWith (s := s)
    (v := { s.takeRequest t with tables := { tables with lastServed := t.domain }, bays := bays, events := events }) st rfl rfl rfl rfl
  exact ⟨hserved, hanswered, State.finishWith_tables .., State.finishWith_bays .., State.finishWith_events .., State.finishWith_capture ..⟩

/-- A write that is refused for its record leaves the tables as they were. -/
theorem State.TakesWrite.badRecord {s : State} {t : Taken} {g i : Nat} (h : s.TakesWrite t g i) (hw : t.request.CarriesRecord)
    {apply : Request → State → Option State} (hnone : apply t.request (s.takeRequest t) = none) :
    ∃ u, Host.Outcome.next (s.serveWrite g apply) = (.next u : Host.Outcome State Fault Refusal) ∧ s.WriteAnswered t .badRecord s.tables s.bays s.events u :=
  ⟨_, congrArg _ ((h.serveWrite hw apply).2 hnone), State.writeAnswered_finishWith _ s.tables s.bays s.events⟩

/-- A write that puts its record in place. -/
theorem State.TakesWrite.ok {s : State} {t : Taken} {g i : Nat} (h : s.TakesWrite t g i) (hw : t.request.CarriesRecord)
    {apply : Request → State → Option State} {tables : AdmissionUnit} {bays : Vector Bay 8} {events : EventUnit}
    (hsome : apply t.request (s.takeRequest t) =
      some { s.takeRequest t with tables := { tables with lastServed := t.domain }, bays := bays, events := events }) :
    ∃ u, Host.Outcome.next (s.serveWrite g apply) = (.next u : Host.Outcome State Fault Refusal) ∧ s.WriteAnswered t .ok tables bays events u :=
  ⟨_, congrArg _ ((h.serveWrite hw apply).1 _ hsome), State.writeAnswered_finishWith _ tables bays events⟩

/-- The index of the record written. -/
theorem State.TakesWrite.index {s : State} {t : Taken} {g n : Nat} [NeZero n] {i : Fin n} (h : s.TakesWrite t g i) : Fin.ofNat n t.request.index = i := by
  obtain ⟨-, -, -, hindex, -⟩ := h
  rw [hindex, Fin.ofNat_val]

/-! ### The aperture table (R3, R4, Table 1-2) -/

theorem bit_eq_true_iff (w : Word) (i : Nat) : bit w i = true ↔ bits w i 1 = 1 := beq_iff_eq

theorem bit_eq_false_iff (w : Word) (i : Nat) : bit w i = false ↔ bits w i 1 = 0 := by
  have := bits_lt w i 1
  rw [← Bool.not_eq_true, bit_eq_true_iff]
  omega

theorem Width.ofCode_eq_none_iff {n : Nat} (h : n < 4) : Width.ofCode n = none ↔ n = 3 := by
  match n, h with
  | 0, _ | 1, _ | 2, _ | 3, _ => decide

theorem Width.code_of_ofCode {n : Nat} {w : Width} (h : Width.ofCode n = some w) : w.code = n := by
  unfold Width.ofCode at h
  split at h <;> cases h <;> rfl

theorem ite_port_eq_iff (b : Bool) : (if b = true then Space.port else .memory) = .port ↔ b = true := by cases b <;> decide
theorem ite_close_eq_iff (b : Bool) : (if b = true then PagePolicy.close else .hold) = .close ↔ b = true := by cases b <;> decide
theorem ite_relaxed_eq_iff (b : Bool) : (if b = true then HoldRule.relaxed else .strict) = .relaxed ↔ b = true := by cases b <;> decide
theorem ite_untracked_eq_iff (b : Bool) : (if b = true then Tracking.untracked else .tracked) = .untracked ↔ b = true := by cases b <;> decide
theorem ite_auto_eq_iff (b : Bool) : (if b = true then PowerPolicy.auto else .manual) = .auto ↔ b = true := by cases b <;> decide

theorem ofNat_bits_val (w : Word) (lo len n : Nat) [NeZero n] (h : 2 ^ len = n) : (Fin.ofNat n (bits w lo len)).val = bits w lo len :=
  Nat.mod_eq_of_lt (h ▸ bits_lt w lo len)

theorem byte_bits_toNat (w : Word) (lo : Nat) : (BitVec.ofNat 8 (bits w lo 8)).toNat = bits w lo 8 := by
  rw [BitVec.toNat_ofNat]
  exact Nat.mod_eq_of_lt (bits_lt w lo 8)

/-- The record of four words holds their fields (Table 9-8). -/
theorem apertureFields_reads {w0 w1 w2 w3 : Word} {w : Width} (hv : bits w3 0 1 = 1) (hw : Width.ofCode (bits w3 5 2) = some w) :
    (apertureFields w0 w1 w2 w3 w).Reads w0 w1 w2 w3 := by
  have hcode := Width.code_of_ofCode hw
  refine ⟨(bit_eq_true_iff ..).2 hv, rfl, rfl, rfl, (ite_port_eq_iff _).trans (bit_eq_true_iff ..), ofNat_bits_val w3 2 3 8 rfl, ?_, ?_,
    (ite_close_eq_iff _).trans (bit_eq_true_iff ..), bit_eq_true_iff .., (ite_relaxed_eq_iff _).trans (bit_eq_true_iff ..), bit_eq_true_iff ..,
    bit_eq_true_iff .., ofNat_bits_val w3 12 2 4 rfl, byte_bits_toNat w3 16⟩
  · show w = .w8 ↔ _
    rw [← hcode]
    cases w <;> decide
  · show w = .w16 ↔ _
    rw [← hcode]
    cases w <;> decide

theorem Aperture.sound_of_memory {a : Aperture} (h : a.kind = .memory) : a.sound = true ↔ a.first.toNat ≤ a.last.toNat
    ∧ a.first.toNat % 4096 = 0 ∧ (a.last.toNat + 1) % 4096 = 0 ∧ a.offset.toNat % 4096 = 0
    ∧ a.offset.toNat + (a.last.toNat + 1 - a.first.toNat) ≤ 2 ^ 28 := by
  unfold Aperture.sound
  rw [h]
  simp only [Bool.and_eq_true, decide_eq_true_eq, beq_iff_eq, and_assoc]
  exact Iff.rfl

theorem Aperture.sound_of_port {a : Aperture} (h : a.kind = .port) : a.sound = true ↔ a.first.toNat ≤ a.last.toNat
    ∧ a.first.toNat % 16 = 0 ∧ (a.last.toNat + 1) % 16 = 0 ∧ a.offset.toNat % 16 = 0
    ∧ a.offset.toNat + (a.last.toNat + 1 - a.first.toNat) ≤ 4096 ∧ a.policy = .hold := by
  unfold Aperture.sound
  rw [h]
  simp only [Bool.and_eq_true, decide_eq_true_eq, beq_iff_eq, and_assoc]
  exact Iff.rfl

/-- The conditions of Table 1-2 as the model checks them on the record of the words. -/
theorem apertureFits_iff {w0 w1 w2 w3 : Word} {w : Width} (hw : Width.ofCode (bits w3 5 2) = some w) :
    apertureFits w0 w1 w2 w3 ↔ (apertureFields w0 w1 w2 w3 w).sound = true := by
  have hcode : bits w3 5 2 ≠ 3 := fun h => by rw [(Width.ofCode_eq_none_iff (bits_lt w3 5 2)).2 h] at hw; cases hw
  have hkind := bits_lt w3 1 1
  have hpolicy := bits_lt w3 7 1
  cases hport : bit w3 1 with
  | false =>
    have hbits := (bit_eq_false_iff ..).1 hport
    have hmemory : (apertureFields w0 w1 w2 w3 w).kind = .memory := by
      show (if bit w3 1 = true then Space.port else .memory) = _
      rw [hport]
      rfl
    rw [Aperture.sound_of_memory hmemory, apertureFits, if_pos hbits, if_pos hbits, Nat.dvd_iff_mod_eq_zero, Nat.dvd_iff_mod_eq_zero,
      Nat.dvd_iff_mod_eq_zero]
    show _ ↔ w0.toNat ≤ w1.toNat ∧ w0.toNat % 4096 = 0 ∧ (w1.toNat + 1) % 4096 = 0 ∧ w2.toNat % 4096 = 0
      ∧ w2.toNat + (w1.toNat + 1 - w0.toNat) ≤ 2 ^ 28
    omega
  | true =>
    have hbits := (bit_eq_true_iff ..).1 hport
    have hmemory : bits w3 1 1 ≠ 0 := by omega
    have hk : (apertureFields w0 w1 w2 w3 w).kind = .port := (ite_port_eq_iff _).2 hport
    have hhold : (apertureFields w0 w1 w2 w3 w).policy = .hold ↔ bits w3 7 1 = 0 := by
      rw [← bit_eq_false_iff]
      show (if bit w3 7 = true then PagePolicy.close else .hold) = .hold ↔ _
      cases bit w3 7 <;> decide
    rw [Aperture.sound_of_port hk, hhold, apertureFits, if_neg hmemory, if_neg hmemory, Nat.dvd_iff_mod_eq_zero, Nat.dvd_iff_mod_eq_zero,
      Nat.dvd_iff_mod_eq_zero]
    show _ ↔ w0.toNat ≤ w1.toNat ∧ w0.toNat % 16 = 0 ∧ (w1.toNat + 1) % 16 = 0 ∧ w2.toNat % 16 = 0
      ∧ w2.toNat + (w1.toNat + 1 - w0.toNat) ≤ 4096 ∧ bits w3 7 1 = 0
    omega

/-- Settles O29: the three cases of the record that the payload gives. -/
theorem apertureWriteReplacesRecord : Obligations.ApertureWriteReplacesRecord := by
  intro s t i w0 w1 w2 w3 h hpayload
  have hw : t.request.CarriesRecord := h.carriesRecord (indices := 32) (length := 4) (by decide) i.isLt (by rw [hpayload]; rfl)
  have hwrite (a : Aperture) (ha : apertureOfWords t.request.payload = some a) : ∃ u, exec .ctlWriteAperture s = .next u
      ∧ s.WriteAnswered t .ok { s.tables with apertures := s.tables.apertures.set i a } s.bays s.events u := by
    refine h.ok hw (apply := writeAperture) ?_
    simp only [writeAperture, ha, h.index, Option.map_some]
    rfl
  have hrefused (ha : apertureOfWords t.request.payload = none) : ∃ u, exec .ctlWriteAperture s = .next u
      ∧ s.WriteAnswered t .badRecord s.tables s.bays s.events u := by
    refine h.badRecord hw (apply := writeAperture) ?_
    rw [writeAperture, ha]
    rfl
  rw [hpayload] at hwrite hrefused
  have hvalid (hv : bits w3 0 1 = 1) : (!bit w3 0) = false := by rw [(bit_eq_true_iff ..).2 hv]; rfl
  refine ⟨fun hv => hwrite _ ?_, fun hv hfits => ?_, fun hv hfits => hrefused ?_⟩
  · rw [apertureOfWords, (bit_eq_false_iff ..).2 hv]
    rfl
  · obtain ⟨w, hwidth⟩ := Option.ne_none_iff_exists'.1 fun hnone =>
      hfits.2.2.2.2.2.1 ((Width.ofCode_eq_none_iff (bits_lt w3 5 2)).1 hnone)
    have ha : apertureOfWords [w0, w1, w2, w3] = some (apertureFields w0 w1 w2 w3 w) := by
      rw [apertureOfWords, hvalid hv, hwidth]
      exact if_pos ((apertureFits_iff hwidth).1 hfits)
    obtain ⟨u, hu, hanswered⟩ := hwrite _ ha
    exact ⟨u, _, hu, apertureFields_reads hv hwidth, hanswered⟩
  · rw [apertureOfWords, hvalid hv]
    cases hwidth : Width.ofCode (bits w3 5 2) with
    | none => rfl
    | some w => exact if_neg fun hs => hfits ((apertureFits_iff hwidth).2 hs)

/-! ### Grants, descriptors and the limit (R28, R141) -/

/-- Settles O30. -/
theorem grantAndDescriptorWritesReplaceRecords : Obligations.GrantAndDescriptorWritesReplaceRecords := by
  intro s t
  refine ⟨fun i g h hpayload => ?_, fun i w0 w1 h hpayload => ?_, fun w h hpayload => ?_⟩
  · have hw : t.request.CarriesRecord := h.carriesRecord (indices := 64) (length := 8) (by decide) i.isLt (by rw [hpayload, Vector.length_toList])
    refine h.ok hw (apply := writeGrant) (tables := { s.tables with grants := s.tables.grants.set i g }) ?_
    simp only [writeGrant, hpayload, grantOfWords_toList, h.index, Option.map_some]
    rfl
  · have hw : t.request.CarriesRecord := h.carriesRecord (indices := 256) (length := 2) (by decide) i.isLt (by rw [hpayload]; rfl)
    let x : Descriptor := { present := bit w0 0, kind := if bit w0 1 then .untracked else .tracked, messageLevel := Fin.ofNat 4 (bits w0 4 2), handler := w1 }
    obtain ⟨u, hu, hanswered⟩ := h.ok hw (apply := writeDescriptor) (tables := s.tables) (bays := s.bays)
      (events := { s.events with descriptors := s.events.descriptors.set i x }) (by simp only [writeDescriptor, hpayload, h.index]; rfl)
    exact ⟨u, x, hu, bit_eq_true_iff .., (ite_untracked_eq_iff _).trans (bit_eq_true_iff ..), ofNat_bits_val w0 4 2 4 rfl, rfl, hanswered⟩
  · have hw : t.request.CarriesRecord := h.carriesRecord (indices := 1) (length := 1) (by decide) (by decide) (by rw [hpayload]; rfl)
    refine ⟨fun hle => ?_, fun hgt => ?_⟩
    · refine h.ok hw (apply := writeDescLimit) ?_
      rw [writeDescLimit, hpayload, limitOfWords, if_pos hle]
      rfl
    · refine h.badRecord hw (apply := writeDescLimit) ?_
      rw [writeDescLimit, hpayload, limitOfWords, if_neg (by omega)]
      rfl

/-! ### Domains and routes (R25, R140) -/

theorem State.deliverable_of_events {u v : State} (he : v.events = u.events) (ht : v.tables = u.tables) (d : DomainId) (it : Item) :
    v.deliverable d it = u.deliverable d it := by
  unfold State.deliverable
  rw [he, ht]

/-- A re-examination reads the event unit and the domain table alone. -/
theorem EventUnit.ExaminedIn.congr {ev : EventUnit} {ds : List DomainId} {u v : State} (h : ev.ExaminedIn ds u) (he : v.events = u.events)
    (ht : v.tables = u.tables) : ev.ExaminedIn ds v where
  pending it := he ▸ h.pending it
  active it := he ▸ h.active it
  tables := he ▸ h.tables
  examined d hd := by
    have hx := h.examined d hd
    unfold State.ReexaminedFrom at hx ⊢
    simp only [State.deliverable_of_events he ht, he]
    exact hx
  others d hd := he ▸ h.others d hd

/-- A re-examination of domains changes their delivery states and nothing else of the event unit. -/
theorem State.reexamineAll_withDelivery (ds : List DomainId) (s : State) (delivery : Vector Delivery 8) :
    { (s.reexamineAll ds).events with delivery := delivery } = { s.events with delivery := delivery } := by
  refine foldl_kept (P := fun v : State => { v.events with delivery := delivery } = { s.events with delivery := delivery }) (fun v d hv => ?_) ds s rfl
  unfold State.reexamine
  split
  · exact hv
  · exact hv

/-- The end of a CTL_WRITE that has replaced a table and had domains re-examined. -/
theorem State.examined_finishWith {s v : State} {t : Taken} (hup : v.uplink = (s.takeRequest t).uplink) (hls : v.tables.lastServed = t.domain)
    (htr : v.tracker = (s.takeRequest t).tracker) (hp : v.pending = s.pending) (ds : List DomainId) :
    let u := (v.reexamineAll ds).finishWith t .ok
    s.Served t u ∧ s.AnsweredWith t .ok {} 0 [] u ∧ u.tables = v.tables ∧ u.bays = v.bays ∧ u.capture = v.capture ∧ v.events.ExaminedIn ds u
      ∧ ∀ delivery, { u.events with delivery := delivery } = { v.events with delivery := delivery } := by
  obtain ⟨hserved, hanswered⟩ := State.written_finishWith (s := s) (v := v.reexamineAll ds) .ok ((State.reexamineAll_uplink ..).trans hup)
    (by rw [State.reexamineAll_tables]; exact hls) ((State.reexamineAll_tracker ..).trans htr) ((State.reexamineAll_pending ..).trans hp)
  have hevents : ((v.reexamineAll ds).finishWith t .ok).events = (v.reexamineAll ds).events := State.finishWith_events ..
  refine ⟨hserved, hanswered, ?_, ?_, ?_, (v.examinedIn_reexamineAll ds).congr hevents (State.finishWith_tables ..), fun delivery => ?_⟩
  · rw [State.finishWith_tables, State.reexamineAll_tables]
  · rw [State.finishWith_bays, State.reexamineAll_bays]
  · rw [State.finishWith_capture, State.reexamineAll_capture]
  · rw [hevents, State.reexamineAll_withDelivery]

theorem mem_routeDomains_iff (i : Fin 68) (before after : Route) (e : DomainId) :
    e ∈ routeDomains i before after ↔ 64 ≤ i.val ∨ before.destination = e ∨ after.destination = e := by
  unfold routeDomains
  split
  · next h =>
    simp only [List.mem_cons, List.not_mem_nil, or_false, Nat.not_le.2 h, false_or]
    exact or_congr eq_comm eq_comm
  · next h => exact iff_of_true (mem_allDomains e) (.inl (Nat.not_lt.1 h))

/-- Settles O31. -/
theorem domainAndRouteWritesReplaceRecords : Obligations.DomainAndRouteWritesReplaceRecords := by
  intro s t w hpayload
  refine ⟨fun i h => ?_, fun i h => ?_⟩
  · have hw : t.request.CarriesRecord := h.carriesRecord (indices := 8) (length := 1) (by decide) i.isLt (by rw [hpayload]; rfl)
    let x : DomainRec := { enabled := bit w 0, level := Fin.ofNat 4 (bits w 4 2), spurious := Fin.ofNat 256 (bits w 8 8) }
    let v : State := { s.takeRequest t with tables := { s.tables with domains := s.tables.domains.set i x, lastServed := t.domain } }
    let ds : List DomainId := if x.enabled = s.tables.domains[i].enabled then [] else [i]
    have happly : writeDomain t.request (s.takeRequest t) = some (v.reexamineAll ds) := by
      have hfound : writeDomain t.request (s.takeRequest t) = some (if x.enabled == s.tables.domains[i].enabled then v else v.reexamine i) := by
        simp only [writeDomain, hpayload, h.index]
        rfl
      rw [hfound]
      dsimp only [ds]
      by_cases hsame : x.enabled = s.tables.domains[i].enabled
      · rw [if_pos (beq_iff_eq.2 hsame), if_pos hsame]; rfl
      · rw [if_neg (fun hb => hsame (beq_iff_eq.1 hb)), if_neg hsame]; rfl
    obtain ⟨hserved, hanswered, htables, hbays, hcapture, hexamined, hevents⟩ := State.examined_finishWith (s := s) (v := v) (t := t) rfl rfl rfl rfl ds
    refine ⟨_, x, congrArg Host.Outcome.next ((h.serveWrite hw writeDomain).1 _ happly), hserved, hanswered, bit_eq_true_iff .., ofNat_bits_val w 4 2 4 rfl,
      ofNat_bits_val w 8 8 256 rfl, htables, hbays, hcapture, fun hsame => ?_, fun hne => ?_, hevents _, fun e he => ?_⟩
    · have hds : ds = [] := if_pos hsame
      rw [hds, State.finishWith_events]
      rfl
    · exact hexamined.examined i (by rw [show ds = [i] from if_neg hne]; exact List.mem_singleton.2 rfl)
    · refine hexamined.others e fun hm => he ?_
      dsimp only [ds] at hm
      split at hm
      · cases hm
      · exact List.mem_singleton.1 hm
  · have hw : t.request.CarriesRecord := h.carriesRecord (indices := 68) (length := 1) (by decide) i.isLt (by rw [hpayload]; rfl)
    let x : Route := { masked := bit w 0, priority := Fin.ofNat 16 (bits w 4 4), vector := Fin.ofNat 256 (bits w 8 8), destination := Fin.ofNat 8 (bits w 16 3) }
    let v : State := { s.takeRequest t with events := { s.events with routes := s.events.routes.set i x } }
    have happly : writeRoute t.request (s.takeRequest t) = some (v.reexamineAll (routeDomains i s.events.routes[i] x)) := by
      simp only [writeRoute, hpayload, h.index]
      rfl
    obtain ⟨hserved, hanswered, htables, hbays, hcapture, hexamined, hevents⟩ := State.examined_finishWith (s := s) (v := v) (t := t) rfl rfl rfl rfl
      (routeDomains i s.events.routes[i] x)
    refine ⟨_, x, congrArg Host.Outcome.next ((h.serveWrite hw writeRoute).1 _ happly), hserved, hanswered, bit_eq_true_iff .., ofNat_bits_val w 4 4 16 rfl,
      ofNat_bits_val w 8 8 256 rfl, ofNat_bits_val w 16 3 8 rfl, hevents _,
      fun e => ⟨fun he => hexamined.examined e ((mem_routeDomains_iff ..).2 he), fun he => hexamined.others e fun hm => he ((mem_routeDomains_iff ..).1 hm)⟩,
      ?_, hbays, hcapture⟩
    unfold State.TablesKept
    rw [htables]
    exact s.takeRequest_tablesKept t

/-! ### The bay policy (R27, R122, R131) -/

/-- The latches that a policy write withdraws, one after the other. -/
def State.withdrawAll (b : BayId) (ks : List (Fin 8)) (s : State) : State := ks.foldl (fun s k => s.withdraw b k) s

theorem State.withdrawAll_kept {α : Type} (f : State → α) (hf : ∀ (v : State) (d : DomainId), f (v.reexamine d) = f v)
    (he : ∀ (v : State) (it : Item), f { v with events := v.events.setPending it false } = f v) (b : BayId) (ks : List (Fin 8)) (s : State) :
    f (s.withdrawAll b ks) = f s := by
  refine foldl_kept (P := fun v => f v = f s) (fun v k hv => ?_) ks s rfl
  unfold State.withdraw
  dsimp only
  split
  · rw [hf, he, hv]
  · exact hv

theorem State.withdraw_isPending (b : BayId) (k : Fin 8) (it : Item) (s : State) :
    (s.withdraw b k).events.isPending it = if it = .bay (baySource b k) then false else s.events.isPending it := by
  unfold State.withdraw
  dsimp only
  split
  · have hsame := State.reexamineAll_isPending [({ s with events := s.events.setPending (.bay (baySource b k)) false } : State).events.routedTo (.bay (baySource b k))] it
      { s with events := s.events.setPending (.bay (baySource b k)) false }
    exact hsame.trans (EventUnit.isPending_setPending s.events (.bay (baySource b k)) it false)
  · next h =>
    split
    · next hit => subst hit; exact Bool.eq_false_iff.2 h
    · rfl

theorem State.withdrawAll_isPending (b : BayId) (ks : List (Fin 8)) (it : Item) (s : State) :
    (s.withdrawAll b ks).events.isPending it = if ∃ k ∈ ks, it = .bay (baySource b k) then false else s.events.isPending it := by
  induction ks generalizing s with
  | nil => exact (if_neg (by rintro ⟨k, hk, -⟩; cases hk)).symm
  | cons k ks ih =>
    show ((s.withdraw b k).withdrawAll b ks).events.isPending it = _
    rw [ih, State.withdraw_isPending]
    by_cases hk : it = .bay (baySource b k)
    · rw [if_pos hk, ite_self]
      exact (if_pos ⟨k, List.mem_cons_self, hk⟩).symm
    · have hiff : (∃ j ∈ k :: ks, it = .bay (baySource b j)) ↔ ∃ j ∈ ks, it = .bay (baySource b j) := by
        simp only [List.mem_cons, exists_eq_or_imp, hk, false_or]
      rw [if_neg hk]
      simp only [hiff]

/-- A latch that is cleared makes no item deliverable. -/
theorem State.deliverable_of_unlatched {s : State} {it o : Item} {d : DomainId}
    (h : ({ s with events := s.events.setPending it false } : State).deliverable d o = true) : s.deliverable d o = true := by
  have hpending := (State.deliverable_iff _ _ _).1 h |>.1
  have hsame : (s.events.setPending it false).isPending o = s.events.isPending o := by
    rw [EventUnit.isPending_setPending] at hpending ⊢
    split at hpending
    · cases hpending
    · next ho => exact if_neg ho
  have hroutes := EventUnit.setPending_routes s.events it false
  have hdelivery := EventUnit.setPending_delivery s.events it false
  rw [← h]
  exact (State.deliverable_congr s { s with events := s.events.setPending it false } d o hsame hroutes (by simp only [hdelivery]) (by simp only [hdelivery])
    (EventUnit.setPending_isActive ..) rfl).symm

/-- Where every domain with a deliverable item is signalled, a withdrawal signals none (R145). -/
theorem State.withdraw_of_signalled {s : State} (h : s.Signalled) (b : BayId) (k : Fin 8) :
    (s.withdraw b k).Signalled ∧ (s.withdraw b k).events.delivery = s.events.delivery := by
  unfold State.withdraw
  dsimp only
  split
  · have hsignalled : ({ s with events := s.events.setPending (.bay (baySource b k)) false } : State).Signalled := fun d it hd => by
      have hkept := EventUnit.setPending_delivery s.events (.bay (baySource b k)) false
      simp only [hkept]
      exact h d it (State.deliverable_of_unlatched hd)
    have hself (d : DomainId) : State.reexamine d { s with events := s.events.setPending (.bay (baySource b k)) false } =
        { s with events := s.events.setPending (.bay (baySource b k)) false } := by
      refine State.reexamine_eq_self ?_
      by_cases hd : ∃ it, ({ s with events := s.events.setPending (.bay (baySource b k)) false } : State).deliverable d it = true
      · obtain ⟨it, hit⟩ := hd
        exact .inl (hsignalled d it hit)
      · exact .inr fun it => Bool.eq_false_iff.2 fun hit => hd ⟨it, hit⟩
    rw [hself]
    exact ⟨hsignalled, EventUnit.setPending_delivery ..⟩
  · exact ⟨h, rfl⟩

theorem State.withdrawAll_of_signalled {s : State} (h : s.Signalled) (b : BayId) (ks : List (Fin 8)) :
    (s.withdrawAll b ks).events.delivery = s.events.delivery :=
  (foldl_kept (P := fun v : State => v.Signalled ∧ v.events.delivery = s.events.delivery)
    (fun v k hv => by
      obtain ⟨hsignalled, hdelivery⟩ := State.withdraw_of_signalled hv.1 b k
      exact ⟨hsignalled, hdelivery.trans hv.2⟩) ks s ⟨h, rfl⟩).2

theorem mem_clearedKinds_iff (before after : Byte) (k : Fin 8) : k ∈ clearedKinds before after ↔ before.getLsbD k = true ∧ after.getLsbD k = false := by
  rw [clearedKinds, List.mem_filter, Bool.and_eq_true, Bool.not_eq_true']
  exact and_iff_right (List.mem_finRange k)

/-- The pending latches after a policy write. -/
theorem State.withdrawAll_cleared_isPending (b : BayId) (before after : Byte) (s : State) :
    (∀ (k : Fin 8) (n : Fin 64), n.val = 8 * b.val + k.val →
      (before.getLsbD k = true → after.getLsbD k = false → (s.withdrawAll b (clearedKinds before after)).events.isPending (.bay n) = false)
      ∧ ((before.getLsbD k = false ∨ after.getLsbD k = true) →
          (s.withdrawAll b (clearedKinds before after)).events.isPending (.bay n) = s.events.isPending (.bay n)))
    ∧ (∀ n : Fin 64, n.val / 8 ≠ b.val → (s.withdrawAll b (clearedKinds before after)).events.isPending (.bay n) = s.events.isPending (.bay n))
    ∧ ∀ c e, (s.withdrawAll b (clearedKinds before after)).events.isPending (.msg c e) = s.events.isPending (.msg c e) := by
  refine ⟨fun k n hn => ⟨fun hbefore hafter => ?_, fun hkept => ?_⟩, fun n hn => ?_, fun c e => ?_⟩
  · have hsource : n = baySource b k := Fin.ext hn
    rw [State.withdrawAll_isPending, if_pos ⟨k, (mem_clearedKinds_iff ..).2 ⟨hbefore, hafter⟩, congrArg Item.bay hsource⟩]
  · rw [State.withdrawAll_isPending, if_neg]
    rintro ⟨j, hj, hit⟩
    have hval : n.val = 8 * b.val + j.val := congrArg Fin.val (Item.bay.inj hit)
    obtain rfl : j = k := Fin.ext (by omega)
    obtain ⟨hbefore, hafter⟩ := (mem_clearedKinds_iff ..).1 hj
    rcases hkept with h | h
    · rw [hbefore] at h; cases h
    · rw [hafter] at h; cases h
  · rw [State.withdrawAll_isPending, if_neg]
    rintro ⟨j, -, hit⟩
    have hval : n.val = 8 * b.val + j.val := congrArg Fin.val (Item.bay.inj hit)
    omega
  · rw [State.withdrawAll_isPending, if_neg]
    rintro ⟨j, -, hit⟩
    cases hit

/-- Settles O32. -/
theorem bayPolicyWriteReplacesRecord : Obligations.BayPolicyWriteReplacesRecord := by
  intro s t b w0 w1 h hpayload
  have hw : t.request.CarriesRecord := h.carriesRecord (indices := 8) (length := 2) (by decide) b.isLt (by rw [hpayload]; rfl)
  have hcheck : (bits w0 4 10 == 0 || decide (1000 < bits w0 4 10) || bits w0 16 8 == 0) = true ↔
      bits w0 4 10 = 0 ∨ 1000 < bits w0 4 10 ∨ bits w0 16 8 = 0 := by
    rw [Bool.or_eq_true, Bool.or_eq_true, beq_iff_eq, decide_eq_true_eq, beq_iff_eq, or_assoc]
  refine ⟨fun hready0 hready hexch => ?_, fun hbad => ?_⟩
  · let p : BayPolicy := { power := if bit w0 0 then .auto else .manual, readyTimeout := bits w0 4 10, exchangeTimeout := bits w0 16 8
                           pollOverride := bits w1 0 16, sense := BitVec.ofNat 8 (bits w1 16 8) }
    let free : Level := Fin.ofNat 4 (bits w0 1 2)
    let v : State := { s.takeRequest t with
      tables := { s.tables with freeLevels := s.tables.freeLevels.set b free, lastServed := t.domain }
      bays := s.bays.set b { s.bays[b] with policy := p } }
    let ks := clearedKinds s.bays[b].policy.sense p.sense
    have hpolicy : policyOfWords [w0, w1] = some (p, free) := by
      refine if_neg fun hc => ?_
      have := hcheck.1 hc
      omega
    have happly : writeBayPolicy t.request (s.takeRequest t) = some (v.withdrawAll b ks) := by
      simp only [writeBayPolicy, hpayload, hpolicy, h.index, Option.map_some]
      rfl
    have htables : (v.withdrawAll b ks).tables = v.tables := State.withdrawAll_kept State.tables (fun v d => State.reexamine_tables d v) (fun _ _ => rfl) b ks v
    have hevents : ((v.withdrawAll b ks).finishWith t .ok).events = (v.withdrawAll b ks).events := State.finishWith_events ..
    obtain ⟨hserved, hanswered⟩ := State.written_finishWith (s := s) (v := v.withdrawAll b ks) (t := t) .ok
      (State.withdrawAll_kept State.uplink (fun v d => State.reexamine_uplink d v) (fun _ _ => rfl) b ks v)
      (by rw [htables]) (State.withdrawAll_kept State.tracker (fun v d => State.reexamine_tracker d v) (fun _ _ => rfl) b ks v)
      (State.withdrawAll_kept State.pending (fun v d => State.reexamine_pending d v) (fun _ _ => rfl) b ks v)
    obtain ⟨hsensed, hothers, hmessages⟩ := State.withdrawAll_cleared_isPending b s.bays[b].policy.sense p.sense v
    refine ⟨_, p, free, congrArg Host.Outcome.next ((h.serveWrite hw writeBayPolicy).1 _ happly), hserved, hanswered,
      (ite_auto_eq_iff _).trans (bit_eq_true_iff ..), ofNat_bits_val w0 1 2 4 rfl, rfl, rfl, rfl, byte_bits_toNat w1 16, ?_, ?_, ?_, fun it => ?_, ?_,
      fun d => ⟨?_, ?_⟩, fun hsignalled => ?_, ?_, ?_, ?_⟩
    · rw [State.finishWith_bays]
      exact State.withdrawAll_kept State.bays (fun v d => State.reexamine_bays d v) (fun _ _ => rfl) b ks v
    · rw [State.finishWith_tables, htables]
    · rw [State.finishWith_capture]
      exact State.withdrawAll_kept State.capture (fun v d => State.reexamine_capture d v) (fun _ _ => rfl) b ks v
    · rw [hevents]
      exact State.withdrawAll_kept (fun v => v.events.isActive it) (fun v d => State.reexamineAll_isActive [d] it v)
        (fun v o => EventUnit.setPending_isActive v.events o it false) b ks v
    · rw [hevents]
      refine ⟨?_, ?_, ?_⟩
      · exact State.withdrawAll_kept (fun v => v.events.routes) (fun v d => State.reexamine_events_routes d v)
          (fun v o => EventUnit.setPending_routes v.events o false) b ks v
      · exact State.withdrawAll_kept (fun v => v.events.descriptors) (fun v d => State.reexamine_events_descriptors d v)
          (fun v o => EventUnit.setPending_descriptors v.events o false) b ks v
      · exact State.withdrawAll_kept (fun v => v.events.limit) (fun v d => State.reexamine_events_limit d v)
          (fun v o => EventUnit.setPending_limit v.events o false) b ks v
    · rw [hevents]
      exact State.withdrawAll_kept (fun v => v.events.delivery[d].threshold) (fun v e => State.reexamine_threshold e d v)
        (fun v o => by simp only [EventUnit.setPending_delivery]) b ks v
    · rw [hevents]
      exact State.withdrawAll_kept (fun v => v.events.delivery[d].inService) (fun v e => State.reexamine_inService e d v)
        (fun v o => by simp only [EventUnit.setPending_delivery]) b ks v
    · rw [hevents]
      exact State.withdrawAll_of_signalled (s := v) hsignalled b ks
    · rw [hevents]; exact hsensed
    · rw [hevents]; exact hothers
    · rw [hevents]; exact hmessages
  · refine h.badRecord hw (apply := writeBayPolicy) ?_
    have hnone : policyOfWords [w0, w1] = none := if_pos (hcheck.2 hbad)
    rw [writeBayPolicy, hpayload, hnone]
    rfl

end Sys2Proof.Machine

/-! POWER_OFF, PARK_LIGHT and PARK_DEEP by bay state (6.7, 7.4): the entries into UNPOWERED, DRAINING and PARKING, and what the end of the event makes of each. -/

namespace Sys2Proof.Machine

/-! ### A bay in service that goes to another state in service -/

theorem Bay.Sound.inService_of_online {b : Bay} (h : b.Sound) (hs : b.state = .online) : b.InService :=
  h.inService (by rw [hs]; rfl) (by rw [hs]; rfl)

theorem Bay.Sound.depth_eq_none {b : Bay} (h : b.Sound) (hs : b.state.hasDepth = false) : b.depth = none := by
  obtain ⟨-, ⟨-, -, -, hdepth, -⟩, -⟩ := h
  rw [hs] at hdepth
  exact Option.isNone_iff_eq_none.1 (Option.isSome_eq_false_iff.1 hdepth)

theorem Bay.Sound.drainRequested_eq_false {b : Bay} (h : b.Sound) (hs : b.state.hasDepth = false) : b.drainRequested = false := by
  obtain ⟨-, ⟨-, -, -, -, -, hdrain, -⟩, -⟩ := h
  exact Bool.eq_false_iff.2 fun hd => absurd (hs.symm.trans (hdrain hd)) (by decide)

/-- The outputs of a bay in service are those of every state in service. -/
theorem Bay.InService.withState {b : Bay} (h : b.InService) {st : BayState} (hst : st.inService = true) : Bay.InService { b with state := st } := by
  obtain ⟨⟨hmain, hreset, haux⟩, hs, htimer, hcause⟩ := h
  obtain ⟨hpowered, hunreset, -⟩ := BayState.of_inService hs
  obtain ⟨hpowered', hunreset', -⟩ := BayState.of_inService hst
  exact ⟨⟨(hmain.trans hpowered).trans hpowered'.symm, (hreset.trans hunreset).trans hunreset'.symm, haux⟩, hst, htimer, hcause⟩

/-- The fields that a bay in service is told by. -/
theorem Bay.InService.congr {b v : Bay} (h : b.InService) (hs : v.state = b.state) (hmain : v.mainRail = b.mainRail) (hreset : v.moduleReset = b.moduleReset)
    (haux : v.auxRail = b.auxRail) (hwanted : v.auxWanted = b.auxWanted) (htimer : v.timer = b.timer) (hcause : v.cause = b.cause) : v.InService := by
  obtain ⟨⟨h1, h2, h3⟩, h4, h5, h6⟩ := h
  refine ⟨⟨?_, ?_, ?_⟩, ?_, ?_, ?_⟩
  · rw [hmain, hs]; exact h1
  · rw [hreset, hs]; exact h2
  · rw [haux, hmain, hwanted]; exact h3
  · rw [hs]; exact h4
  · rw [htimer]; exact h5
  · rw [hcause]; exact h6

theorem Bay.InService.callArbiter {b : Bay} (h : b.InService) : b.callArbiter.InService := h.congr rfl rfl rfl rfl rfl rfl rfl

/-- From one state in service to another in which the arbiter acts, nothing but the state and the depth changes. -/
theorem Bay.InService.enter {b : Bay} (h : b.InService) {st : BayState} (hst : st.inService = true) (harb : st.arbitrates = true) :
    b.enter st = { b with state := st, depth := if st.hasDepth then b.depth else none } := by
  rw [Bay.enter_of_inService h.outputs h.state hst]
  simp only [h.timer, h.cause, harb, Bool.and_true]

theorem Bay.parkSettle_of_not_parking {b : Bay} (h : b.state ≠ .parking) : b.parkSettle = b := by
  simp [Bay.parkSettle, h]

theorem Bay.settle_of_not_parking {b : Bay} (h : b.state ≠ .parking) : b.settle = b.drainSettle := by
  rw [Bay.settle, Bay.parkSettle_of_not_parking h]

theorem Bay.busFree_congr {b v : Bay} (hs : v.state = b.state) (hx : v.exchange = b.exchange) (hu : v.unit = b.unit) : v.busFree = b.busFree := by
  rw [Bay.busFree, Bay.busFree, hs, hx, hu]

/-- A second call of the arbiter adds nothing to the first. -/
theorem Bay.callArbiter_withLanes (b : Bay) (lanes : Vector Lane 4) : { b.callArbiter with lanes := lanes }.callArbiter = { b with lanes := lanes }.callArbiter := by
  have hdue : (b.due || b.busFree || { b.callArbiter with lanes := lanes }.busFree) = (b.due || { b with lanes := lanes }.busFree) := by
    rw [Bay.busFree_congr (b := b) (v := { b.callArbiter with lanes := lanes }) rfl rfl rfl,
      Bay.busFree_congr (b := b) (v := { b with lanes := lanes }) rfl rfl rfl, Bool.or_assoc, Bool.or_self]
  exact congrArg (fun d : Bool => { b with lanes := lanes, due := d }) hdue

/-! ### POWER_OFF (R115 to R117) -/

/-- A bring-up is cut short (R113, R115). -/
theorem Bay.enter_unpowered_of_bringUp {b : Bay} (h : b.Sound) (hs : b.state = .powering ∨ b.state = .held ∨ b.state = .starting ∨ b.state = .identifying) :
    b.enter .unpowered = { b with state := .unpowered, mainRail := false, auxRail := false, moduleReset := true, railGood := false, timer := none
                                  idLine := b.lineLeft } := by
  have hservice : b.state.inService = false := by rcases hs with h | h | h | h <;> rw [h] <;> rfl
  have hpowered : b.state.powered = true := by rcases hs with h | h | h | h <;> rw [h] <;> rfl
  have hcause := h.cause_eq_none (by rcases hs with h | h | h | h <;> rw [h] <;> decide)
  obtain ⟨hidentity, hpoll, howed, hforced, hdue, hdepth⟩ := h.holdsNothing hservice
  obtain ⟨⟨hmain, -⟩, -⟩ := h
  rw [hpowered] at hmain
  have hline : (if (b.state == .identifying) = true then b.idLine ++ [.closingMark] else b.idLine) = b.lineLeft := by
    simp only [beq_iff_eq]; rfl
  simp [Bay.enter, BayState.powered, BayState.inReset, BayState.inService, BayState.arbitrates, BayState.hasDepth, hmain, hidentity, hpoll, howed, hforced, hdue,
    hdepth, hcause, ← hline]

/-- POWER_OFF of a FAULTED bay clears its cause (R115). -/
theorem Bay.enter_unpowered_of_faulted {b : Bay} (h : b.Sound) (hs : b.state = .faulted) : b.enter .unpowered = { b with state := .unpowered, cause := .none } := by
  obtain ⟨hidentity, hpoll, howed, hforced, hdue, hdepth⟩ := h.holdsNothing (by rw [hs]; rfl)
  obtain ⟨⟨hmain, hreset, haux⟩, ⟨-, -, htimer, -⟩, -⟩ := h
  rw [hs] at hmain hreset htimer
  have htimer' : b.timer = none := Option.isNone_iff_eq_none.1 (Option.isSome_eq_false_iff.1 htimer)
  have hmain' : b.mainRail = false := hmain
  have hreset' : b.moduleReset = true := hreset
  rw [hmain'] at haux
  have haux' : b.auxRail = false := haux
  simp [Bay.enter, BayState.powered, BayState.inReset, BayState.inService, BayState.arbitrates, BayState.hasDepth, hs, hmain', hreset', haux', htimer', hidentity,
    hpoll, howed, hforced, hdue, hdepth]

/-- What POWER_OFF makes of an ONLINE bay: it drains, and its event ends as a drain's does (R115, R117). -/
theorem Bay.actPowerOff_of_online {b : Bay} (h : b.Sound) (hs : b.state = .online) :
    ∃ after, b.actPowerOff = some after ∧ ({ b with state := .draining } : Bay).callArbiter.Drains after := by
  have hin := h.inService_of_online hs
  have hdepth := h.depth_eq_none (by rw [hs]; rfl)
  have henter : b.enter .draining = { b with state := .draining } := by
    rw [hin.enter rfl rfl, hdepth]
    rfl
  refine ⟨_, ?_, (hin.withState (st := .draining) rfl).callArbiter.drains rfl hdepth⟩
  rw [Bay.actPowerOff, hs]
  dsimp only
  rw [henter, Bay.settle_of_not_parking]
  nofun

theorem Bay.actPowerOff_of_park {b : Bay} (hs : b.state = .parking ∨ b.state = .parked ∨ b.state = .waking) :
    b.actPowerOff = some ({ b with drainRequested := true }.wakeCheck).settle := by
  rcases hs with h | h | h <;> simp only [Bay.actPowerOff, h]

theorem Bay.not_parkOver_of_settled {b : Bay} (h : b.Settled) (hs : b.state = .parking) : ¬ b.ParkOver := by
  obtain ⟨hlight, hdeep⟩ := h.1 hs
  rintro (⟨hd, ho⟩ | ⟨hd, ho⟩)
  · exact hlight hd ho
  · exact hdeep hd ho

theorem Bay.Sound.unit_eq_none {b : Bay} (h : b.Sound) (honline : b.state ≠ .online) (hdraining : b.state ≠ .draining) : b.unit = none := by
  obtain ⟨-, -, ⟨-, -, -, -, -, hunit, -⟩, -⟩ := h
  exact Option.not_isSome_iff_eq_none.1 fun hu => (hunit hu).elim honline hdraining

/-- A drain requested in a park that is not over, or in a wake, waits (R116). -/
theorem Bay.settle_drainRequested {b : Bay} (h : b.Sound) (hs : b.state = .parking ∨ b.state = .waking) :
    ({ b with drainRequested := true } : Bay).settle = { b with drainRequested := true } := by
  rcases hs with hs | hs
  · have hunit := h.unit_eq_none (by rw [hs]; decide) (by rw [hs]; decide)
    obtain ⟨hout, ⟨hid, hpoll, htimer, hdepth, hcause, -, hline, hgood⟩, -, hsettled, -⟩ := h
    have hsettles := Bay.settle_settles (b := { b with drainRequested := true }) hout
      ⟨hid, hpoll, htimer, hdepth, hcause, fun _ => by show b.state.hasDepth = true; rw [hs]; rfl, hline, hgood⟩ fun _ => hunit
    obtain ⟨-, -, hgoing, -⟩ := hsettles
    exact hgoing hs (Bay.not_parkOver_of_settled hsettled hs)
  · exact Bay.settle_of_not_ending (by show b.state ≠ _; rw [hs]; decide) (by show b.state ≠ _; rw [hs]; decide)

/-- What a drain requested makes of a PARKED bay: its wake, and of a wake of 0 the drain (R115, R116, R134). -/
theorem Bay.actPowerOff_of_parked {b : Bay} (h : b.Sound) (hs : b.state = .parked) :
    ∃ after, b.actPowerOff = some after ∧ ({ b with drainRequested := true } : Bay).Wakes after := by
  obtain ⟨htimer, hexchange, hunit, hforced, hdue, hcause, -⟩ := h.atRest hs
  obtain ⟨hout, ⟨hid, hpoll, htimed, hdepth, hcaused, -, hline, hgood⟩, -⟩ := h
  have hdormant : Bay.Dormant { b with drainRequested := true } := Bay.dormant_of_parked hout
    ⟨hid, hpoll, htimed, hdepth, hcaused, fun _ => by show b.state.hasDepth = true; rw [hs]; rfl, hline, hgood⟩ hs hexchange hunit
  refine ⟨_, ?_, hdormant.wakes⟩
  have hnot : ({ b with drainRequested := true } : Bay).startWake.state ≠ .parking := by
    by_cases hn : ({ b with drainRequested := true } : Bay).wakeTime = 0
    · rw [hdormant.startWake_of_drain hn rfl]; nofun
    · rw [hdormant.startWake_of_ne_zero hn]; nofun
  rw [Bay.actPowerOff_of_park (.inr (.inl hs)), Bay.wakeCheck, if_pos (by simp [hs]), Bay.settle_of_not_parking hnot]

/-- The release-all finds no lane to release where every lane is CLOSED. -/
theorem Bay.LanesReleased.of_allClosed {b : Bay} (h : b.AllClosed) : b.LanesReleased b.lanes := fun l =>
  (if_neg fun hopened => absurd ((h.2 l).symm.trans hopened.1) (by decide)).symm

/-- Settles O34, state by state. -/
theorem powerOffActsByState : Obligations.PowerOffActsByState := by
  intro s t ht hsound b answered
  have hb : b.Sound := hsound t.request.actionBay
  have hanswered {x : Bay} (hx : b.actPowerOff = some x) : answered x := ⟨_, rfl, State.onBay_accepted ht hx⟩
  refine ⟨fun hs => hanswered ?bringUp, fun hs hq => ?online, fun hs hq hopen => ?released, fun hs hq hclosed => ?closed, fun hs => hanswered ?waiting,
    fun hs n hlight hdeep => ?parked, fun hs => hanswered ?unchanged, fun hs => hanswered ?faulted⟩
  case bringUp =>
    rw [← Bay.enter_unpowered_of_bringUp hb hs]
    rcases hs with h | h | h | h <;> simp only [Bay.actPowerOff, h]
  case online =>
    obtain ⟨after, hafter, hwork, -⟩ := Bay.actPowerOff_of_online hb hs
    exact hanswered (hafter.trans (congrArg some (hwork hq)))
  case released =>
    obtain ⟨after, hafter, -, -, hrelease⟩ := Bay.actPowerOff_of_online hb hs
    obtain ⟨lanes, hlanes, hsame, hnew⟩ := hrelease hq hopen
    refine ⟨lanes, hlanes, hanswered (hafter.trans (congrArg some ?_))⟩
    by_cases hl : lanes = b.lanes
    · rw [hsame hl, hl]
    · rw [hnew hl]
      exact Bay.callArbiter_withLanes { b with state := .draining } lanes
  case closed =>
    obtain ⟨after, hafter, -, hend, -⟩ := Bay.actPowerOff_of_online hb hs
    exact hanswered (hafter.trans (congrArg some (hend hq hclosed)))
  case waiting =>
    have hnot : b.state ≠ .parked := by rcases hs with h | h <;> rw [h] <;> decide
    rw [Bay.actPowerOff_of_park (hs.imp_right .inr), Bay.wakeCheck_of_not_parked (b := { b with drainRequested := true }) hnot, Bay.settle_drainRequested hb hs]
  case parked =>
    obtain ⟨-, -, -, hforced, hdue, -, hdrain⟩ := hb.atRest hs
    have hqueue : b.queue = [] := by
      obtain ⟨-, -, ⟨-, -, -, -, -, -, -, -, hparked⟩, -⟩ := hb
      exact (hparked hs).1
    obtain ⟨after, hafter, hwakes⟩ := Bay.actPowerOff_of_parked hb hs
    obtain ⟨hne, -, hzero⟩ := hwakes n hlight hdeep
    refine ⟨fun hn => ?_, fun hn hopen => ?_, fun hn hclosed => ?_⟩
    · have hx := hne hn
      refine hanswered (hafter.trans (congrArg some (hx.trans ?_)))
      simp only [hforced, hdue]
    · obtain ⟨-, -, hrelease⟩ := hzero hn rfl
      obtain ⟨lanes, hlanes, hsame, hnew⟩ := hrelease hqueue hopen
      refine ⟨lanes, hlanes, hanswered (hafter.trans (congrArg some ?_))⟩
      by_cases hl : lanes = b.lanes
      · simp only [hsame hl, hl, hforced, hdrain]
      · simp only [hnew hl, Bay.callArbiter, Bool.true_or, hforced, hdrain]
    · obtain ⟨-, hend, -⟩ := hzero hn rfl
      refine hanswered (hafter.trans (congrArg some ((hend hqueue hclosed).trans ?_)))
      simp only [hforced, hdue, hdrain]
  case unchanged => rcases hs with h | h | h | h <;> simp only [Bay.actPowerOff, h]
  case faulted =>
    rw [← Bay.enter_unpowered_of_faulted hb hs]
    simp only [Bay.actPowerOff, hs]

end Sys2Proof.Machine

/-! PARK_LIGHT and PARK_DEEP (6.7.3): the entry into PARKING, and a park that is over at once. -/

namespace Sys2Proof.Machine

/-- A bay that has just been told to park: in PARKING with its depth, and with no work and no drain. -/
structure Bay.Parks (b : Bay) (d : Depth) : Prop extends b.InService where
  parking : b.state = .parking
  depth : b.depth = some d
  queue : b.queue = []
  undrained : b.drainRequested = false

theorem Bay.Parks.parkSettle_of_over {b : Bay} {d : Depth} (h : b.Parks d) (ho : b.ParkOver) :
    b.parkSettle = Bay.wakeCheck { b with state := .parked, forced := false, due := false } := by
  have hover := (b.parkOver_iff (by rw [h.depth]; rfl)).2 ho
  rw [Bay.parkSettle, if_pos (by rw [Bool.and_assoc, hover, h.parking]; rfl), Bay.enter_of_inService h.outputs h.state rfl]
  simp [BayState.hasDepth, BayState.arbitrates, h.timer, h.cause]

theorem Bay.Parks.settle_of_going {b : Bay} {d : Depth} (h : b.Parks d) (ho : ¬ b.ParkOver) : b.settle = b := by
  have hpark : b.parkSettle = b := by
    rw [Bay.parkSettle, if_neg]
    rw [Bool.and_assoc, Bool.and_eq_true, b.parkOver_iff (by rw [h.depth]; rfl)]
    exact fun hp => ho hp.2
  rw [Bay.settle, hpark, Bay.drainSettle_of_not_draining (by rw [h.parking]; decide)]

theorem Bay.Parks.settle_of_rest {b : Bay} {d : Depth} (h : b.Parks d) (ho : b.ParkOver) (hn : b.owed ≠ 8) :
    b.settle = { b with state := .parked, forced := false, due := false } := by
  rw [Bay.settle, h.parkSettle_of_over ho]
  simp [Bay.wakeCheck, h.queue, hn, h.undrained, Config.owedMax, Bay.drainSettle]

/-- A wake of 0 takes the bay to ONLINE, with a decision point due where its bus is free. -/
theorem Bay.InService.startWake_of_eq_zero {b : Bay} (h : b.InService) (hn : b.wakeTime = 0) (hd : b.drainRequested = false) :
    b.startWake = { b with state := .online, depth := none, timeouts := 0, forced := false, due := false }.callArbiter := by
  rw [Bay.startWake_eq, if_pos (beq_iff_eq.2 hn), Bay.wakeEnds, h.enter_online]
  simp only [hd, Bool.false_eq_true, if_false]

/-- A park that is over with 8 polls owed goes on to the wake. -/
theorem Bay.Parks.settle_of_owed {b : Bay} {d : Depth} (h : b.Parks d) (ho : b.ParkOver) (hn : b.owed = 8) :
    (b.wakeTime ≠ 0 → b.settle = { b with state := .waking, forced := false, due := false, timer := some b.wakeTime })
      ∧ (b.wakeTime = 0 → b.settle = { b with state := .online, depth := none, timeouts := 0, forced := false, due := false }.callArbiter) := by
  have hcheck : b.parkSettle = Bay.startWake { b with state := .parked, forced := false, due := false } := by
    rw [h.parkSettle_of_over ho, Bay.wakeCheck, if_pos (by simp [hn, Config.owedMax])]
  have hin : Bay.InService { b with state := .parked, forced := false, due := false } := (h.toInService.withState rfl).congr rfl rfl rfl rfl rfl rfl rfl
  refine ⟨fun ht => ?_, fun ht => ?_⟩
  · rw [Bay.settle, hcheck, hin.startWake_of_ne_zero ht]
    exact Bay.drainSettle_of_not_draining nofun
  · rw [Bay.settle, hcheck, hin.startWake_of_eq_zero ht h.undrained]
    exact Bay.drainSettle_of_not_draining nofun

/-- An idle ONLINE bay that goes to PARKING. -/
theorem Bay.Sound.enter_parking {b : Bay} (h : b.Sound) (hs : b.state = .online) (d : Depth) :
    ({ b.enter .parking with depth := some d } : Bay) = { b with state := .parking, depth := some d } := by
  rw [(h.inService_of_online hs).enter rfl rfl]

theorem Bay.Sound.parks {b : Bay} (h : b.Sound) (hs : b.state = .online) (hq : b.queue = []) (d : Depth) (lanes : Vector Lane 4) :
    Bay.Parks { b with state := .parking, depth := some d, lanes := lanes }.callArbiter d where
  toInService := by
    have hin : Bay.InService { b with state := .parking } := (h.inService_of_online hs).withState rfl
    have hparking : Bay.InService { b with state := .parking, depth := some d, lanes := lanes } := hin.congr rfl rfl rfl rfl rfl rfl rfl
    exact hparking.callArbiter
  parking := rfl
  depth := rfl
  queue := hq
  undrained := h.drainRequested_eq_false (by rw [hs]; rfl)

theorem Bay.actParkLight_of_idle {b : Bay} (h : b.Sound) (hs : b.state = .online) (hq : b.queue = []) :
    b.actParkLight = some { b with state := .parking, depth := some .light }.callArbiter.settle := by
  rw [Bay.actParkLight, if_pos (by simp [hs, Bay.idle, hq]), h.enter_parking hs]

theorem Bay.actParkDeep_of_idle {b : Bay} (h : b.Sound) (hs : b.state = .online) (hq : b.queue = []) :
    b.actParkDeep = some { b with state := .parking, depth := some .deep, lanes := b.releaseAll.lanes }.callArbiter.settle := by
  rw [Bay.actParkDeep, if_pos (by simp [hs, Bay.idle, hq]), h.enter_parking hs]
  rfl

theorem Bay.parks_refused {b : Bay} (h : ¬ (b.state = .online ∧ b.queue = [])) : b.actParkLight = none ∧ b.actParkDeep = none := by
  have hc : ¬ ((b.state == .online && b.idle) = true) := by simpa [Bay.idle] using h
  exact ⟨if_neg hc, if_neg hc⟩

theorem Bay.releaseAll_lane_state (b : Bay) (l : LaneId) : b.releaseAll.lanes[l].state = b.lanes[l].state := by
  rw [b.releaseAll_lanesReleased l]
  split <;> rfl

/-- Settles O37, by whether the park is over at once, and by the polls that are then owed. -/
theorem parkActsOnIdleBay : Obligations.ParkActsOnIdleBay := by
  intro s t hsound b light deep
  have hb : b.Sound := hsound t.request.actionBay
  refine ⟨fun ht => ⟨fun hn => ⟨_, rfl, State.onBay_refused ht (Bay.parks_refused hn).1⟩, fun hs hq => ?light⟩,
    fun ht => ⟨fun hn => ⟨_, rfl, State.onBay_refused ht (Bay.parks_refused hn).2⟩, fun hs hq => ?deep⟩⟩
  case light =>
    have hlight {x : Bay} (hx : ({ b with state := .parking, depth := some .light } : Bay).callArbiter.settle = x) : light x :=
      ⟨_, rfl, State.onBay_accepted ht ((Bay.actParkLight_of_idle hb hs hq).trans (congrArg some hx))⟩
    have hparks := hb.parks hs hq .light b.lanes
    have hover : ({ b with state := .parking, depth := some .light } : Bay).callArbiter.ParkOver ↔ b.LightParkOver :=
      ⟨fun h => h.elim And.right fun h => absurd h.1 nofun, fun h => .inl ⟨rfl, h⟩⟩
    refine ⟨fun ho => hlight (hparks.settle_of_going (mt hover.1 ho)), fun ho hn => hlight (hparks.settle_of_rest (hover.2 ho) hn), fun ho hn => hlight ?_⟩
    exact (hparks.settle_of_owed (hover.2 ho) hn).1 nofun
  case deep =>
    have hdeep {x : Bay} (hx : ({ b with state := .parking, depth := some .deep, lanes := b.releaseAll.lanes } : Bay).callArbiter.settle = x) : deep x :=
      ⟨_, rfl, State.onBay_accepted ht ((Bay.actParkDeep_of_idle hb hs hq).trans (congrArg some hx))⟩
    have hparks := hb.parks hs hq .deep b.releaseAll.lanes
    have hover : ({ b with state := .parking, depth := some .deep, lanes := b.releaseAll.lanes } : Bay).callArbiter.ParkOver ↔ b.AllClosed := by
      refine ⟨fun h => ?_, fun h => .inr ⟨rfl, h.1, fun l => (b.releaseAll_lane_state l).trans (h.2 l)⟩⟩
      obtain h | ⟨-, hx, hl⟩ := h
      · exact absurd h.1 nofun
      · exact ⟨hx, fun l => (b.releaseAll_lane_state l).symm.trans (hl l)⟩
    have hsame (hc : b.AllClosed) : b.releaseAll.lanes = b.lanes := (Bay.LanesReleased.of_allClosed hc).eq.symm
    refine ⟨fun ho => ⟨_, b.releaseAll_lanesReleased, hdeep (hparks.settle_of_going (mt hover.1 ho))⟩, fun ho hn => ?_, fun ho hn id hid hw => ?_, fun ho hn id hid hw => ?_⟩
    all_goals rw [hsame ho] at hdeep hparks hover
    · exact hdeep (hparks.settle_of_rest (hover.2 ho) hn)
    · have hwake := Bay.wakeTime_of_deep (b := ({ b with state := .parking, depth := some .deep } : Bay).callArbiter) rfl hid
      refine hdeep (((hparks.settle_of_owed (hover.2 ho) hn).1 (hwake ▸ hw)).trans ?_)
      rw [hwake]
      rfl
    · have hwake := Bay.wakeTime_of_deep (b := ({ b with state := .parking, depth := some .deep } : Bay).callArbiter) rfl hid
      refine hdeep (((hparks.settle_of_owed (hover.2 ho) hn).2 (hwake.trans hw)).trans ?_)
      simp only [Bay.callArbiter, ← hs, ← hb.depth_eq_none (by rw [hs]; rfl)]

end Sys2Proof.Machine

/-! The decision point (4.4, 5.3): what the arbiter chooses, and what a bay that has chosen is at the end of the event. -/

namespace Sys2Proof.Machine

/-! ### Two updates of one bay, and a bay that is settled -/

theorem State.mapBay_mapBay (b : BayId) (f g : Bay → Bay) (s : State) : (s.mapBay b f).mapBay b g = s.mapBay b fun y => g (f y) := by
  refine congrArg (fun v : Vector Bay 8 => { s with bays := v }) ?_
  rw [State.mapBay_same]
  exact Vector.set_set _ _

theorem State.mapBay_const (b : BayId) (f : Bay → Bay) (s : State) : s.mapBay b f = s.mapBay b fun _ => f s.bays[b] := rfl

/-- A bay that is settled does nothing more by itself at the end of an event (R80, R117, R133). -/
theorem Bay.settle_of_settled {b : Bay} (h : b.Settled) (hdepth : b.state = .parking → b.depth.isSome = true) : b.settle = b := by
  have hpark : b.parkSettle = b := by
    rw [Bay.parkSettle, if_neg]
    intro hc
    rw [Bool.and_assoc, Bool.and_eq_true, beq_iff_eq] at hc
    obtain ⟨hs, hover⟩ := hc
    exact Bay.not_parkOver_of_settled h hs ((b.parkOver_iff (hdepth hs)).1 hover)
  rw [Bay.settle, hpark, Bay.drainSettle]
  by_cases hc : (b.state == .draining && b.idle) = true
  · obtain ⟨hs, hq⟩ := Bool.and_eq_true_iff.1 hc
    obtain ⟨hopen, hpending⟩ := h.2 (eq_of_beq hs) (b.idle_iff.1 hq)
    have hlanes : b.LanesReleased b.lanes := fun l => by
      split
      · rename_i ho
        rw [← hpending l ho.1 ho.2]
      · rfl
    rw [if_pos hc, if_neg (mt b.allClosed_iff.1 hopen), Bay.drainRelease, if_pos hlanes.eq.symm]
  · rw [if_neg hc]

/-- A bay with an exchange in progress is settled where the lanes that a drain is to release are the ones it had, or are no longer OPEN. -/
theorem Bay.Settled.of_exchange {b v : Bay} (h : b.Settled) (hx : v.exchange.isSome = true) (hs : v.state = b.state) (hq : v.queue = b.queue)
    (hl : ∀ l : LaneId, v.lanes[l] = b.lanes[l] ∨ v.lanes[l].state ≠ .opened) : v.Settled := by
  have hsome : v.exchange ≠ none := Option.isSome_iff_ne_none.1 hx
  refine ⟨fun _ => ⟨fun _ h => hsome h.1, fun _ h => hsome h.1⟩, fun hdrain hempty => ⟨fun h => hsome h.1, fun l ho hp => ?_⟩⟩
  obtain hsame | hshut := hl l
  · rw [hsame] at ho hp ⊢
    exact (h.2 (hs.symm.trans hdrain) (hq.symm.trans hempty)).2 l ho hp
  · exact absurd ho hshut

theorem Bay.Settled.congr {b v : Bay} (h : b.Settled) (hx : v.exchange = b.exchange) (hs : v.state = b.state) (hq : v.queue = b.queue) (hl : v.lanes = b.lanes)
    (hd : v.depth = b.depth) : v.Settled := by
  rw [Bay.Settled, Bay.LightParkOver, Bay.AllClosed, hx, hs, hq, hl, hd]
  exact h

theorem Bay.Sound.depth_of_parking {b : Bay} (h : b.Sound) (hs : b.state = .parking) : b.depth.isSome = true := by
  obtain ⟨-, ⟨-, -, -, hdepth, -⟩, -⟩ := h
  rw [hdepth, hs]
  rfl

/-! ### The choice of the arbiter (R83, R84) -/

theorem Bay.forcedRun_iff (b : Bay) : b.forcedRun = true ↔ b.ForcedRun := by
  unfold Bay.forcedRun Bay.ForcedRun Config.owedMax
  by_cases h8 : b.owed = 8
  · simp [h8]
  · by_cases h0 : b.owed = 0
    · simp [h0]
    · simp [h8, h0]

theorem Bay.releasable_iff (b : Bay) (l : LaneId) : (b.lanes[l].releasePending && b.lanes[l].dwellExpired && !b.lanes[l].pinned) = true ↔ b.Releasable l := by
  rw [Bool.and_assoc, Bool.and_eq_true, Bool.and_eq_true, Bool.not_eq_true']
  exact Iff.rfl

theorem Bay.deferredLane_eq_some_iff (b : Bay) (l : LaneId) : b.deferredLane = some l ↔ b.Releasable l ∧ ∀ k < l, ¬ b.Releasable k := by
  rw [Bay.deferredLane, find?_finRange_eq_some_iff, b.releasable_iff]
  exact and_congr_right fun _ => forall₂_congr fun k _ => by rw [← b.releasable_iff k, Bool.not_eq_true]

theorem Bay.deferredLane_eq_none_iff (b : Bay) : b.deferredLane = none ↔ ∀ l : LaneId, ¬ b.Releasable l := by
  rw [Bay.deferredLane, List.find?_eq_none]
  exact ⟨fun h l => mt (b.releasable_iff l).2 (h l (List.mem_finRange l)), fun h l _ => mt (b.releasable_iff l).1 (h l)⟩

theorem Bay.arbiterStep_of_forcedRun {b : Bay} (h : b.ForcedRun) : b.arbiterStep = .forcedPoll := if_pos (b.forcedRun_iff.2 h)

theorem Bay.arbiterStep_of_releasable {b : Bay} (h : ¬ b.ForcedRun) {l : LaneId} (hl : b.Releasable l) (hlowest : ∀ k < l, ¬ b.Releasable k) :
    b.arbiterStep = .deferredRelease l := by
  rw [Bay.arbiterStep, if_neg (mt b.forcedRun_iff.1 h), (b.deferredLane_eq_some_iff l).2 ⟨hl, hlowest⟩]

theorem Bay.arbiterStep_entries {b : Bay} (h : ¬ b.ForcedRun) (hl : ∀ l : LaneId, ¬ b.Releasable l) : b.arbiterStep = .entries := by
  rw [Bay.arbiterStep, if_neg (mt b.forcedRun_iff.1 h), b.deferredLane_eq_none_iff.2 hl]

theorem Bay.atDecision_iff (b : Bay) : b.atDecision = true ↔ b.BusFree ∧ b.due = true := by
  rw [Bay.atDecision, Bool.and_eq_true, b.busFree_iff]

/-! ### BAY_DECISION_POINT -/

theorem exec_bayDecisionPoint_of_not {b : BayId} {s : State} (h : ¬ (s.bays[b].BusFree ∧ s.bays[b].due = true)) : exec (.bayDecisionPoint b) s = .next s :=
  if_neg (mt s.bays[b].atDecision_iff.1 h)

theorem exec_bayDecisionPoint {b : BayId} {s : State} (h : s.bays[b].BusFree ∧ s.bays[b].due = true) :
    exec (.bayDecisionPoint b) s = .next ((s.arbitrate b).settle b) :=
  if_pos (s.bays[b].atDecision_iff.2 h)

/-- The bay at the decision point it has taken. -/
def Bay.decided (b : Bay) : Bay := { b with forced := b.forcedRun, due := false }

theorem Bay.decided_of_forcedRun {b : Bay} (h : b.ForcedRun) : b.decided = { b with forced := true, due := false } := by
  rw [Bay.decided, b.forcedRun_iff.2 h]

theorem Bay.decided_of_not_forcedRun {b : Bay} (h : ¬ b.ForcedRun) : b.decided = { b with forced := false, due := false } := by
  rw [Bay.decided, Bool.eq_false_iff.2 (mt b.forcedRun_iff.1 h)]

theorem State.arbitrate_of_forcedRun {b : BayId} {s : State} (h : s.bays[b].ForcedRun) : s.arbitrate b = s.mapBay b fun y => y.decided.issue .poll := by
  rw [State.arbitrate, Bay.arbiterStep_of_forcedRun h]
  exact State.mapBay_mapBay b Bay.decided (Bay.issue .poll) s

theorem State.arbitrate_of_releasable {b : BayId} {s : State} (h : ¬ s.bays[b].ForcedRun) {l : LaneId} (hl : s.bays[b].Releasable l)
    (hlowest : ∀ k < l, ¬ s.bays[b].Releasable k) : s.arbitrate b = s.mapBay b fun y => y.decided.issueRelease l := by
  rw [State.arbitrate, Bay.arbiterStep_of_releasable h hl hlowest]
  exact State.mapBay_mapBay b Bay.decided (Bay.issueRelease l) s

theorem State.arbitrate_entries {b : BayId} {s : State} (h : ¬ s.bays[b].ForcedRun) (hl : ∀ l : LaneId, ¬ s.bays[b].Releasable l) :
    s.arbitrate b = (s.mapBay b Bay.decided).serveEntries b := by
  rw [State.arbitrate, Bay.arbiterStep_entries h hl]
  rfl

/-- A poll that is owed goes out on an idle bay (R126). -/
theorem State.idlePoll_of_owed {b : BayId} {s : State} (hq : s.bays[b].queue = []) (ho : s.bays[b].owed ≠ 0) : s.idlePoll b = s.mapBay b (Bay.issue .poll) :=
  if_pos (by rw [s.bays[b].idle_iff.2 hq, Bool.true_and, decide_eq_true_eq]; omega)

theorem State.idlePoll_of_not {b : BayId} {s : State} (h : s.bays[b].queue = [] → s.bays[b].owed = 0) : s.idlePoll b = s := by
  refine if_neg fun hc => ?_
  obtain ⟨hidle, howed⟩ := Bool.and_eq_true_iff.1 hc
  have := of_decide_eq_true howed
  have := h (s.bays[b].idle_iff.1 hidle)
  omega

theorem State.serveEntries_of_parking {b : BayId} {s : State} (h : s.bays[b].state = .parking) : s.serveEntries b = s.idlePoll b :=
  if_pos (by rw [h]; rfl)

theorem State.serveEntries_of_empty {b : BayId} {s : State} (h : s.bays[b].queue = []) : s.serveEntries b = s.idlePoll b := by
  have hnone (st : EntryState) : s.inQueue b st = none := by rw [State.inQueue, h]; rfl
  rw [State.serveEntries, hnone, hnone, hnone]
  exact ite_self _

/-- A bay that has chosen no exchange stays as it is at the end of the event. -/
theorem Bay.Sound.settle_decided {b : Bay} (h : b.Sound) : b.decided.settle = b.decided := by
  obtain ⟨-, -, -, hsettled, -⟩ := id h
  exact Bay.settle_of_settled (hsettled.congr rfl rfl rfl rfl rfl) h.depth_of_parking

theorem Bay.Sound.settle_issue {b : Bay} (h : b.Sound) (op : ExchangeOp) : (b.decided.issue op).settle = b.decided.issue op := by
  obtain ⟨-, -, -, hsettled, -⟩ := id h
  exact Bay.settle_of_settled (hsettled.of_exchange rfl rfl rfl fun _ => .inl rfl) h.depth_of_parking

theorem Bay.Sound.settle_issueRelease {b : Bay} (h : b.Sound) (l : LaneId) : (b.decided.issueRelease l).settle = b.decided.issueRelease l := by
  obtain ⟨-, -, -, hsettled, -⟩ := id h
  refine Bay.settle_of_settled (hsettled.of_exchange rfl rfl rfl fun k => ?_) h.depth_of_parking
  have hlane : (b.decided.issueRelease l).lanes[k] = if l.val = k.val then { Lane.shut with state := .closing, page := b.lanes[l].page } else b.lanes[k] :=
    Vector.getElem_set l.isLt _
  rw [hlane]
  split
  · exact .inr nofun
  · exact .inl rfl

/-- Settles O42, by the steps of the arbiter's choice. -/
theorem pollsAndReleasesAtDecisionPoint : Obligations.PollsAndReleasesAtDecisionPoint := by
  intro s b hb y becomes poll now
  refine ⟨⟨Bay.callArbiter_of_busFree, Bay.callArbiter_of_not_busFree⟩, exec_bayDecisionPoint_of_not, fun hnow hf => ?forced, fun hnow hf l hl hlow => ?release,
    fun hnow hf hnone => ?entries⟩
  case forced =>
    have hb' : becomes (y.decided.issue .poll) := by
      refine (exec_bayDecisionPoint hnow).trans (congrArg Host.Outcome.next ?_)
      rw [State.arbitrate_of_forcedRun hf, State.settle, State.mapBay_mapBay, State.mapBay_const, hb.settle_issue]
    rw [Bay.decided_of_forcedRun hf] at hb'
    exact hb'
  case release =>
    have hb' : becomes (y.decided.issueRelease l) := by
      refine (exec_bayDecisionPoint hnow).trans (congrArg Host.Outcome.next ?_)
      rw [State.arbitrate_of_releasable hf hl hlow, State.settle, State.mapBay_mapBay, State.mapBay_const, hb.settle_issueRelease]
    rw [Bay.decided_of_not_forcedRun hf] at hb'
    exact hb'
  case entries =>
    have hexec : exec (.bayDecisionPoint b) s = .next (((s.mapBay b Bay.decided).serveEntries b).settle b) :=
      (exec_bayDecisionPoint hnow).trans (congrArg (fun v : State => Host.Outcome.next (v.settle b)) (State.arbitrate_entries hf hnone))
    have hsame := State.mapBay_same b Bay.decided s
    refine ⟨fun hq ho => ?_, fun hidle => ?_⟩
    · have hb' : becomes (y.decided.issue .poll) := by
        refine hexec.trans (congrArg Host.Outcome.next ?_)
        rw [State.serveEntries_of_empty (by rw [hsame]; exact hq), State.idlePoll_of_owed (by rw [hsame]; exact hq) (by rw [hsame]; exact ho), State.mapBay_mapBay,
          State.settle, State.mapBay_mapBay, State.mapBay_const, hb.settle_issue]
      rw [Bay.decided_of_not_forcedRun hf] at hb'
      exact hb'
    · have hpoll : (s.mapBay b Bay.decided).serveEntries b = s.mapBay b Bay.decided := by
        have hnot : (s.mapBay b Bay.decided).idlePoll b = s.mapBay b Bay.decided := State.idlePoll_of_not fun hq => by
          rw [hsame] at hq ⊢
          exact hidle.elim And.right fun h => absurd hq h.1
        obtain ⟨hq, -⟩ | ⟨-, hs⟩ := hidle
        · exact (State.serveEntries_of_empty (by rw [hsame]; exact hq)).trans hnot
        · exact (State.serveEntries_of_parking (by rw [hsame]; exact hs)).trans hnot
      have hb' : becomes y.decided := by
        refine hexec.trans (congrArg Host.Outcome.next ?_)
        rw [hpoll, State.settle, State.mapBay_mapBay, State.mapBay_const, hb.settle_decided]
      rw [Bay.decided_of_not_forcedRun hf] at hb'
      exact hb'

end Sys2Proof.Machine

/-! The entries at a decision point (5.3): the entry that goes on, the one that is interjected, and the one that begins. -/

namespace Sys2Proof.Machine

theorem Entry.interjectable_iff (x : Entry) : x.interjectable = true ↔ x.AtInterjection := by
  simp only [Entry.interjectable, Entry.AtInterjection, Bool.and_eq_true, ReqKind.isBlock_iff, bne_iff_ne, beq_iff_eq, decide_eq_true_eq, Config.interjectionStride,
    Nat.pos_iff_ne_zero, Nat.dvd_iff_mod_eq_zero, and_assoc]

theorem takeWhile_first {before after : List EntryId} {c : EntryId} (hc : c ∉ before) : (before ++ c :: after).takeWhile (· != c) = before := by
  have hne (x : EntryId) (hx : x ∈ before) : (x != c) = true := bne_iff_ne.2 (ne_of_mem_of_not_mem hx hc)
  rw [List.takeWhile_append_of_pos hne, List.takeWhile_cons_of_neg (by simp), List.append_nil]

/-- At its first place in the queue an entry is a candidate as the entries before it say. -/
theorem Tracker.candidate_iff {t : Tracker} {e c : EntryId} {before after : List EntryId} (hc : c ∉ before) :
    t.candidate (before ++ c :: after) e c = true ↔ t.Candidate e before c := by
  have hblock : ((!t.entries[c].kind.isBlock) = true) ↔ t.entries[c].kind ≠ .blockRead ∧ t.entries[c].kind ≠ .blockWrite := by
    rw [Bool.not_eq_true', ← Bool.not_eq_true, ReqKind.isBlock_iff, not_or]
  rw [Tracker.candidate, takeWhile_first hc, Bool.and_eq_true, Bool.and_eq_true, Bool.and_eq_true, hblock, List.all_eq_true]
  simp only [beq_iff_eq, bne_iff_ne, and_assoc]
  exact Iff.rfl

theorem Tracker.find?_candidate_eq_none {t : Tracker} {q : List EntryId} {e : EntryId} (h : ∀ before c after, q = before ++ c :: after → ¬ t.Candidate e before c) :
    q.find? (t.candidate q e) = none := by
  refine List.find?_eq_none.2 fun c hc hcandidate => ?_
  obtain ⟨before, after, rfl, hfirst⟩ := List.eq_append_cons_of_mem hc
  exact h before c after rfl ((Tracker.candidate_iff hfirst).1 hcandidate)

/-- The oldest candidate is the one that the arbiter finds. -/
theorem Tracker.find?_candidate_eq_some {t : Tracker} {e c : EntryId} {before after : List EntryId} (hc : t.Candidate e before c)
    (holdest : ∀ before' c' after', before = before' ++ c' :: after' → ¬ t.Candidate e before' c') :
    (before ++ c :: after).find? (t.candidate (before ++ c :: after) e) = some c := by
  have hfirst : c ∉ before := fun hmem => by
    obtain ⟨as, bs, rfl, -⟩ := List.eq_append_cons_of_mem hmem
    obtain ⟨hqueued, hread, hwrite, hother, hahead⟩ := hc
    exact holdest as c bs rfl ⟨hqueued, hread, hwrite, hother, fun x hx => hahead x (List.mem_append_left _ hx)⟩
  refine List.find?_eq_some_iff_append.2 ⟨(Tracker.candidate_iff hfirst).2 hc, before, after, rfl, fun a ha => ?_⟩
  obtain ⟨as, bs, rfl, hnot⟩ := List.eq_append_cons_of_mem ha
  rw [List.append_assoc, List.cons_append, Bool.not_eq_true', ← Bool.not_eq_true, Tracker.candidate_iff hnot]
  exact holdest as a bs rfl

/-! ### The entries of the queue -/

theorem State.inQueue_eq_some {b : BayId} {s : State} {st : EntryState} {ahead behind : List EntryId} {e : EntryId} (hq : s.bays[b].queue = ahead ++ e :: behind)
    (he : s.tracker.entries[e].state = st) (hahead : ∀ x ∈ ahead, s.tracker.entries[x].state ≠ st) : s.inQueue b st = some e := by
  rw [State.inQueue, hq]
  refine List.find?_eq_some_iff_append.2 ⟨beq_iff_eq.2 he, ahead, behind, rfl, fun a ha => ?_⟩
  rw [Bool.not_eq_true']
  exact beq_eq_false_iff_ne.2 (hahead a ha)

theorem State.inQueue_eq_none {b : BayId} {s : State} {st : EntryState} (h : ∀ x ∈ s.bays[b].queue, s.tracker.entries[x].state ≠ st) : s.inQueue b st = none :=
  List.find?_eq_none.2 fun x hx hc => h x hx (eq_of_beq hc)

theorem State.serveEntries_of_running {b : BayId} {s : State} {e : EntryId} (hs : s.bays[b].state ≠ .parking) (h : s.inQueue b .running = some e) :
    s.serveEntries b = s.continueEntry b e := by
  rw [State.serveEntries, if_neg (mt eq_of_beq hs), h]

theorem State.serveEntries_of_suspended {b : BayId} {s : State} {e : EntryId} (hs : s.bays[b].state ≠ .parking) (hrun : s.inQueue b .running = none)
    (h : s.inQueue b .suspended = some e) : s.serveEntries b = s.beginEntry b e := by
  rw [State.serveEntries, if_neg (mt eq_of_beq hs), hrun, h]

theorem State.serveEntries_of_queued {b : BayId} {s : State} {e : EntryId} (hs : s.bays[b].state ≠ .parking) (hrun : s.inQueue b .running = none)
    (hsus : s.inQueue b .suspended = none) (h : s.inQueue b .queued = some e) : s.serveEntries b = s.beginEntry b e := by
  rw [State.serveEntries, if_neg (mt eq_of_beq hs), hrun, hsus, h]

theorem State.continueEntry_of_not_interjection {b : BayId} {s : State} {e : EntryId} (h : ¬ s.tracker.entries[e].AtInterjection) :
    s.continueEntry b e = s.beginEntry b e :=
  if_neg (mt (Entry.interjectable_iff _).1 h)

theorem State.continueEntry_of_no_candidate {b : BayId} {s : State} {e : EntryId}
    (h : ∀ before c after, s.bays[b].queue = before ++ c :: after → ¬ s.tracker.Candidate e before c) : s.continueEntry b e = s.beginEntry b e := by
  rw [State.continueEntry, Tracker.find?_candidate_eq_none h]
  exact ite_self _

theorem State.continueEntry_of_candidate {b : BayId} {s : State} {e c : EntryId} {before after : List EntryId} (he : s.tracker.entries[e].AtInterjection)
    (hq : s.bays[b].queue = before ++ c :: after) (hc : s.tracker.Candidate e before c)
    (holdest : ∀ before' c' after', before = before' ++ c' :: after' → ¬ s.tracker.Candidate e before' c') :
    s.continueEntry b e = (s.mapEntry e fun y => { y with state := .suspended }).beginEntry b c := by
  rw [State.continueEntry, if_pos ((Entry.interjectable_iff _).2 he), hq, Tracker.find?_candidate_eq_some hc holdest]

/-- Settles O43: the entry is the one that the arbiter finds in the queue. -/
theorem decisionPointServesEntries : Obligations.DecisionPointServesEntries := by
  intro s b ahead behind e hfree hdue hparking hforced hnone hqueue q state s1 begins
  have hsame : s1.bays[b] = { s.bays[b] with forced := false, due := false } := State.mapBay_same b _ s
  have hq : s1.bays[b].queue = q := by rw [hsame]
  have hstate : s1.bays[b].state ≠ .parking := by rw [hsame]; exact hparking
  have hexec {v : State} (hv : s1.serveEntries b = v) : exec (.bayDecisionPoint b) s = .next (v.settle b) := by
    have hdecided : s.mapBay b Bay.decided = s1 := by
      rw [State.mapBay_const, Bay.decided_of_not_forcedRun hforced]
      rfl
    rw [exec_bayDecisionPoint ⟨hfree, hdue⟩, State.arbitrate_entries hforced hnone, hdecided, hv]
  refine ⟨fun he hfirst => ?running, fun hrun he hfirst => ?suspended, fun hrun hsus he hfirst => ?queued⟩
  case running =>
    have hserve : s1.serveEntries b = s1.continueEntry b e :=
      State.serveEntries_of_running hstate (State.inQueue_eq_some (hq.trans hqueue) he hfirst)
    refine ⟨fun hn => hexec (hserve.trans (State.continueEntry_of_not_interjection hn)),
      fun _ hn => hexec (hserve.trans (State.continueEntry_of_no_candidate fun before c after hc => hn before c after (hq.symm.trans hc))),
      fun before c after hi hc hcandidate holdest => hexec (hserve.trans (State.continueEntry_of_candidate hi (hq.trans hc) hcandidate holdest))⟩
  case suspended =>
    refine hexec (State.serveEntries_of_suspended hstate (State.inQueue_eq_none ?_) (State.inQueue_eq_some (hq.trans hqueue) he hfirst))
    rw [hq]
    exact hrun
  case queued =>
    refine hexec (State.serveEntries_of_queued hstate (State.inQueue_eq_none ?_) (State.inQueue_eq_none ?_) (State.inQueue_eq_some (hq.trans hqueue) he hfirst))
    all_goals rw [hq]
    · exact hrun
    · exact hsus

end Sys2Proof.Machine

/-! The begin of a unit (1.5, 4.2.3, 5.3): the checks at its start, its lane preparation, and its first data exchange. -/

namespace Sys2Proof.Machine

theorem auxGateShut_iff (x : Entry) (t : Translation) (b : Bay) :
    auxGateShut x t b = true ↔ (x.kind = .write ∨ x.kind = .blockWrite ∨ x.kind = .fetchAdd) ∧ t.auxGated = true ∧ b.auxRail = false := by
  rw [auxGateShut, Bool.and_eq_true, Bool.and_eq_true, Bool.not_eq_true', ReqKind.isWrite_iff, and_assoc]

theorem State.beginEntry_of_discard {b : BayId} {e : EntryId} {s : State} {x : Translation} (hx : s.tracker.entries[e].xlat = some x)
    (hd : s.tracker.entries[e].discard = true) : s.beginEntry b e = (s.endEntry b e .ok).mapBay b Bay.callArbiter := by
  simp only [State.beginEntry, hx, hd, if_true]

theorem State.beginEntry_of_gated {b : BayId} {e : EntryId} {s : State} {x : Translation} (hx : s.tracker.entries[e].xlat = some x)
    (hd : s.tracker.entries[e].discard = false) (hg : auxGateShut s.tracker.entries[e] x s.bays[b] = true) :
    s.beginEntry b e = (s.endEntry b e .railOff).mapBay b Bay.callArbiter := by
  simp only [State.beginEntry, hx, hd, hg, if_true, Bool.false_eq_true, if_false]

theorem State.beginEntry_of_unit {b : BayId} {e : EntryId} {s : State} {x : Translation} (hx : s.tracker.entries[e].xlat = some x)
    (hd : s.tracker.entries[e].discard = false) (hg : ¬ auxGateShut s.tracker.entries[e] x s.bays[b] = true) :
    s.beginEntry b e = (s.mapEntry e fun y => { y with state := .running }).mapBay b
      fun _ => s.bays[b].beginUnit (s.tracker.entries[e].nextUnit e x s.bays[b].laneCount) := by
  simp only [State.beginEntry, hx, hd, hg, Bool.false_eq_true, if_false]
  rfl

/-- The first data exchange of a unit is a write for a write, and a read for a read and for a FETCH_ADD, which pins its lane. -/
theorem Bay.startData_begins (u : UnitRun) (b : Bay) : b.DataBegins u (b.startData u) := by
  obtain ⟨entry, dir, addr, size, width, policy, place, value, phase, got⟩ := u
  cases dir with
  | read => refine ⟨nofun, fun _ => ?_⟩; cases place <;> rfl
  | write => refine ⟨fun _ => ?_, fun h => absurd rfl h⟩; cases place <;> rfl
  | fetchAdd => refine ⟨nofun, fun _ => ?_⟩; cases place <;> rfl

/-! ### The lane preparation of a unit, by the state of its lane (R76) -/

theorem Bay.beginUnit_of_port {u : UnitRun} {b : Bay} (hp : u.place = none) : b.beginUnit u = b.startData u := by
  rw [Bay.beginUnit, hp]

section
variable {u : UnitRun} {p : LanePlace} {b : Bay}

theorem Bay.beginUnit_of_closed (hp : u.place = some p) (hl : b.lanes[p.lane].state = .closed) : b.beginUnit u = b.selects u p := by
  simp only [Bay.beginUnit, hp, hl]
  rfl

theorem Bay.beginUnit_of_closing (hp : u.place = some p) (hl : b.lanes[p.lane].state = .closing) :
    b.beginUnit u = { b with unit := some { u with phase := .awaitRecovery } } := by
  simp only [Bay.beginUnit, hp, hl]

theorem Bay.beginUnit_of_hit (hp : u.place = some p) (hl : b.lanes[p.lane].state = .opened) (hpage : b.lanes[p.lane].page = some p.page) :
    b.beginUnit u = ({ b with lanes := b.lanes.set p.lane { b.lanes[p.lane] with releasePending := false } } : Bay).startData u := by
  simp only [Bay.beginUnit, hp, hl, hpage, beq_self_eq_true, if_true]
  rfl

theorem Bay.beginUnit_of_miss (hp : u.place = some p) (hl : b.lanes[p.lane].state = .opened) (hpage : b.lanes[p.lane].page ≠ some p.page) :
    b.beginUnit u = if b.lanes[p.lane].dwellExpired then b.releaseFor u p else { b with unit := some { u with phase := .awaitDwell } } := by
  simp only [Bay.beginUnit, hp, hl, beq_eq_false_iff_ne.2 hpage, Bool.false_eq_true, if_false]

end

/-- Settles O44, by the checks and then by the space of the unit and the state of its lane. -/
theorem unitBeginsByItsChecks : Obligations.UnitBeginsByItsChecks := by
  intro s b e x hx y n gated begun
  have hgate : auxGateShut n x y = true ↔ gated := auxGateShut_iff n x y
  refine ⟨State.beginEntry_of_discard hx, fun hd hg => State.beginEntry_of_gated hx hd (hgate.2 hg), fun hd hg => ?_⟩
  have hbegun {after : Bay} (h : y.beginUnit (n.nextUnit e x y.laneCount) = after) : begun after :=
    (State.beginEntry_of_unit hx hd (mt hgate.1 hg)).trans (h ▸ rfl)
  refine ⟨n.nextUnit e x y.laneCount, rfl, rfl, rfl, rfl, rfl, fun h => ?increment, fun h => ?decrement, fun h => ?still, fun h => ?read, fun h => ?write,
    fun h => ?fetchAdd, fun h => ?port, fun h => ?memory⟩
  case increment => simp only [Entry.nextUnit, unitAddr, h]
  case decrement => simp only [Entry.nextUnit, unitAddr, h]
  case still => rcases h with h | h <;> simp only [Entry.nextUnit, unitAddr, h]
  case read => rcases h with h | h <;> simp only [Entry.nextUnit, ReqKind.dir, h]
  case write =>
    rcases h with h | h <;> simp only [Entry.nextUnit, ReqKind.dir, h] <;> exact ⟨trivial, rfl⟩
  case fetchAdd => simp only [Entry.nextUnit, ReqKind.dir, h, and_self]
  case port =>
    have hplace : (n.nextUnit e x y.laneCount).place = none := by simp only [Entry.nextUnit, h]
    exact ⟨hplace, _, hbegun (Bay.beginUnit_of_port hplace), Bay.startData_begins _ _⟩
  case memory =>
    have hplace : (n.nextUnit e x y.laneCount).place = some
        { lane := laneOf (pageOf (n.nextUnit e x y.laneCount).addr) y.laneCount, page := pageOf (n.nextUnit e x y.laneCount).addr } := by
      simp only [Entry.nextUnit, h]
    refine ⟨_, hplace, rfl, rfl, fun hl => hbegun (Bay.beginUnit_of_closed hplace hl), fun hl => hbegun (Bay.beginUnit_of_closing hplace hl),
      fun hl hpage => ⟨_, hbegun (Bay.beginUnit_of_hit hplace hl hpage), Bay.startData_begins _ _⟩, fun hl hpage hdwell => ?_, fun hl hpage hdwell => ?_⟩
    · exact hbegun ((Bay.beginUnit_of_miss hplace hl hpage).trans (if_pos hdwell))
    · exact hbegun ((Bay.beginUnit_of_miss hplace hl hpage).trans (if_neg (Bool.eq_false_iff.1 hdwell)))

end Sys2Proof.Machine

/-! The bytes of a unit in its data exchanges (1.5), and the arithmetic of a FETCH_ADD (R97). -/

namespace Sys2Proof.Machine

/-! ### Bytes, words and values (R165) -/

theorem wordByte_eq_extractLsb' (w : Word) (j : Nat) : wordByte w j = w.extractLsb' (8 * j) 8 := by
  rw [wordByte, BitVec.extractLsb', Nat.shiftRight_eq_div_pow]

theorem bytesOfNat_length (n v : Nat) : (bytesOfNat n v).length = n := by
  induction n generalizing v with
  | zero => rfl
  | succ n ih => exact congrArg (· + 1) (ih (v / 256))

theorem natOfBytes_bytesOfNat (n v : Nat) : natOfBytes (bytesOfNat n v) = v % 256 ^ n := by
  induction n generalizing v with
  | zero => rw [Nat.pow_zero, Nat.mod_one]; rfl
  | succ n ih =>
    have hmod : v % 256 ^ (n + 1) = v % 256 + 256 * (v / 256 % 256 ^ n) := by rw [Nat.pow_succ', Nat.mod_mul]
    rw [hmod, ← ih]
    rfl

theorem fetchNew_length (size : Nat) (old operand : List Byte) : (fetchNew size old operand).length = size := bytesOfNat_length _ _

theorem natOfBytes_fetchNew (size : Nat) (old operand : List Byte) :
    natOfBytes (fetchNew size old operand) = (natOfBytes old + natOfBytes operand) % 2 ^ (8 * size) := by
  have hpow : 2 ^ (8 * size) = 256 ^ size := Nat.pow_mul 2 8 size
  rw [fetchNew, natOfBytes_bytesOfNat, hpow, Nat.mod_mod]
  rfl

/-! ### The bytes of one exchange (R18 to R20) -/

theorem inUnit_iff (addr size b : Nat) : inUnit addr size b = true ↔ addr ≤ b ∧ b < addr + size := by
  rw [inUnit, Bool.and_eq_true, decide_eq_true_eq, decide_eq_true_eq]

theorem getD_of_lt {α : Type} {l : List α} (d : α) {j : Nat} (h : j < l.length) : l.getD j d = l[j] := by
  rw [List.getD_eq_getElem?_getD, List.getElem?_eq_getElem h, Option.getD_some]

/-- An exchange whose bytes are all of the unit carries them, with every byte enabled. -/
theorem writeData_of_whole {addr size k : Nat} {w : Width} {value : List Byte} (hv : value.length = size) (hk : k + w.bytes ≤ size) :
    writeData addr size w value (addr + k) = (value.drop k).take w.bytes := by
  refine List.ext_getElem ?_ fun j hj _ => ?_
  · rw [writeData, List.length_map, List.length_range, List.length_take, List.length_drop]
    omega
  · rw [writeData, List.length_map, List.length_range] at hj
    simp only [writeData, List.getElem_map, List.getElem_range, List.getElem_take, List.getElem_drop]
    have hindex : addr + k + j - addr = k + j := by omega
    rw [if_pos ((inUnit_iff _ _ _).2 (by omega)), hindex, getD_of_lt _ (by omega)]

theorem writeMask_of_whole {addr size k : Nat} {w : Width} (hk : k + w.bytes ≤ size) : writeMask addr size w (addr + k) = List.replicate w.bytes true := by
  refine List.eq_replicate_iff.2 ⟨by rw [writeMask, List.length_map, List.length_range], fun x hx => ?_⟩
  obtain ⟨j, hj, rfl⟩ := List.mem_map.1 hx
  have := List.mem_range.1 hj
  exact (inUnit_iff _ _ _).2 (by omega)

theorem keptBytes_of_whole {addr size k : Nat} {w : Width} (hk : k + w.bytes ≤ size) (data : Word) :
    keptBytes addr size w (addr + k) data = (List.range w.bytes).map (wordByte data) := by
  refine congrArg (List.map (wordByte data)) (List.filter_eq_self.2 fun j hj => ?_)
  have := List.mem_range.1 hj
  exact (inUnit_iff _ _ _).2 (by omega)

/-- Where the exchange begins `i` bytes below the unit, its byte `k` is of the unit exactly from `i` on. -/
theorem inUnit_of_below {addr i : Nat} (hi : i ≤ addr) (size k : Nat) : inUnit addr size (addr - i + k) = decide (i ≤ k ∧ k < i + size) := by
  refine Bool.eq_iff_iff.2 ?_
  rw [inUnit_iff, decide_eq_true_eq]
  omega

theorem writeMask_of_below {addr i : Nat} (hi : i ≤ addr) (size : Nat) (w : Width) :
    writeMask addr size w (addr - i) = (List.range w.bytes).map fun k => decide (i ≤ k ∧ k < i + size) :=
  List.map_congr_left fun k _ => inUnit_of_below hi size k

theorem writeData_of_below {addr i : Nat} (hi : i ≤ addr) (size : Nat) (w : Width) (value : List Byte) :
    writeData addr size w value (addr - i) = (List.range w.bytes).map fun k => if i ≤ k ∧ k < i + size then value.getD (k - i) 0 else 0 := by
  refine List.map_congr_left fun k _ => ?_
  have hindex : addr - i + k - addr = k - i := by omega
  rw [inUnit_of_below hi, hindex]
  simp only [decide_eq_true_eq]

/-- The numbers below `w` from `i` on, `size` of them. -/
theorem filter_range_span {i size w : Nat} (h : i + size ≤ w) :
    ((List.range w).filter fun k => decide (i ≤ k ∧ k < i + size)) = (List.range size).map (i + ·) := by
  obtain ⟨rest, rfl⟩ := Nat.exists_eq_add_of_le h
  rw [List.range_add, List.range_add, List.filter_append, List.filter_append, List.filter_eq_nil_iff.2, List.filter_eq_self.2, List.filter_eq_nil_iff.2,
    List.append_nil, List.nil_append]
  all_goals intro k hk
  · obtain ⟨j, -, rfl⟩ := List.mem_map.1 hk
    rw [decide_eq_true_eq]
    omega
  · obtain ⟨j, hj, rfl⟩ := List.mem_map.1 hk
    have := List.mem_range.1 hj
    rw [decide_eq_true_eq]
    omega
  · have := List.mem_range.1 hk
    rw [decide_eq_true_eq]
    omega

theorem keptBytes_of_below {addr i size : Nat} {w : Width} (hi : i ≤ addr) (hw : i + size ≤ w.bytes) (data : Word) :
    keptBytes addr size w (addr - i) data = (List.range size).map fun k => wordByte data (i + k) := by
  have hfilter : ((List.range w.bytes).filter fun k => inUnit addr size (addr - i + k)) = (List.range size).map (i + ·) := by
    rw [← filter_range_span hw]
    exact List.filter_congr fun k _ => inUnit_of_below hi size k
  rw [keptBytes, hfilter, List.map_map]
  rfl

/-! ### The exchanges of a unit -/

theorem UnitRun.ops_of_memory {u : UnitRun} (h : u.place.isSome = true) (j : Nat) :
    u.readOp j = .mread (exchangeAddr u.addr u.width j) u.width
      ∧ u.writeOp j = .mwrite (exchangeAddr u.addr u.width j) u.width (writeData u.addr u.size u.width u.value (exchangeAddr u.addr u.width j))
        (writeMask u.addr u.size u.width (exchangeAddr u.addr u.width j)) := by
  obtain ⟨p, hp⟩ := Option.isSome_iff_exists.1 h
  simp only [UnitRun.readOp, UnitRun.writeOp, hp, and_self]

theorem UnitRun.ops_of_port {u : UnitRun} (h : u.place = none) (j : Nat) :
    u.readOp j = .pread (exchangeAddr u.addr u.width j) u.width
      ∧ u.writeOp j = .pwrite (exchangeAddr u.addr u.width j) u.width (writeData u.addr u.size u.width u.value (exchangeAddr u.addr u.width j))
        (writeMask u.addr u.size u.width (exchangeAddr u.addr u.width j)) := by
  simp only [UnitRun.readOp, UnitRun.writeOp, h, and_self]

/-- Sizes and widths are powers of 2, so the smaller divides the larger. -/
theorem Width.bytes_dvd_or (w : Width) {size : Nat} (h : size = 1 ∨ size = 2 ∨ size = 4 ∨ size = 8) :
    (w.bytes ≤ size → w.bytes ∣ size) ∧ (size < w.bytes → size ∣ w.bytes) := by
  cases w <;> rcases h with rfl | rfl | rfl | rfl <;> decide

theorem exchangeAddr_of_dvd {addr : Nat} {w : Width} (h : w.bytes ∣ addr) (j : Nat) : exchangeAddr addr w j = addr + j * w.bytes := by
  rw [exchangeAddr, exchangeBase, Nat.mod_eq_zero_of_dvd h, Nat.sub_zero]

/-- Settles O45. -/
theorem unitExchangesPlaceBytes : Obligations.UnitExchangesPlaceBytes := by
  refine ⟨⟨fun ws j => ?words, bytesOfWords_wordsOfBytes, ⟨rfl, fun _ _ => rfl⟩, fun n v => ⟨bytesOfNat_length n v, natOfBytes_bytesOfNat n v⟩⟩,
    fun u hsize haligned hvalue => ?unit,
    fun size old operand => ⟨fetchNew_length size old operand, natOfBytes_fetchNew size old operand, decide_eq_true_iff⟩⟩
  case words =>
    rw [bytesOfWords_get]
    exact congrArg (Option.map · _) (funext fun w => wordByte_eq_extractLsb' w _)
  case unit =>
    intro w i
    refine ⟨fun hw => ⟨if_neg (by omega), fun j hj => ?whole⟩, fun hw => ⟨if_pos hw, ?part⟩⟩
    case whole =>
      have hdvd : w ∣ u.size := (u.width.bytes_dvd_or hsize).1 hw
      have hk : j * w + w ≤ u.size := by
        calc j * w + w = (j + 1) * w := (Nat.succ_mul j w).symm
          _ ≤ u.size / w * w := Nat.mul_le_mul_right w hj
          _ ≤ u.size := Nat.div_mul_le_self u.size w
      have haddr : exchangeAddr u.addr u.width j = u.addr + j * w := exchangeAddr_of_dvd (Nat.dvd_trans hdvd haligned) j
      refine ⟨haddr, Nat.dvd_add (Nat.dvd_trans hdvd haligned) (Nat.dvd_mul_left w j), fun hp => ?_, fun hp => ?_, keptBytes_of_whole hk⟩
      · rw [(u.ops_of_memory hp j).1, (u.ops_of_memory hp j).2, haddr, writeData_of_whole hvalue hk, writeMask_of_whole hk]
        exact ⟨rfl, rfl⟩
      · rw [(u.ops_of_port hp j).1, (u.ops_of_port hp j).2, haddr, writeData_of_whole hvalue hk, writeMask_of_whole hk]
        exact ⟨rfl, rfl⟩
    case part =>
      have hi : i ≤ u.addr := Nat.mod_le _ _
      have hwidth : 0 < w := by omega
      have hspan : i + u.size ≤ w := by
        have hdvd : u.size ∣ w := (u.width.bytes_dvd_or hsize).2 hw
        have hdvdi : u.size ∣ i := (Nat.dvd_mod_iff hdvd).2 haligned
        obtain ⟨m, hm⟩ := hdvd
        obtain ⟨k, hk⟩ := hdvdi
        have hlt : u.size * k < u.size * m := by rw [← hk, ← hm]; exact Nat.mod_lt _ hwidth
        have := Nat.mul_le_mul_left u.size (Nat.succ_le_of_lt (Nat.lt_of_mul_lt_mul_left hlt))
        rw [hm, hk]
        exact this
      have haddr : exchangeAddr u.addr u.width 0 = u.addr - i := by rw [exchangeAddr, Nat.zero_mul]; rfl
      refine ⟨haddr, Nat.dvd_sub_mod _, fun hp => ?_, fun hp => ?_, keptBytes_of_below hi hspan⟩
      · rw [(u.ops_of_memory hp 0).1, (u.ops_of_memory hp 0).2, haddr, writeData_of_below hi, writeMask_of_below hi]
        exact ⟨rfl, rfl⟩
      · rw [(u.ops_of_port hp 0).1, (u.ops_of_port hp 0).2, haddr, writeData_of_below hi, writeMask_of_below hi]
        exact ⟨rfl, rfl⟩

end Sys2Proof.Machine

/-! The answers to an exchange (4.2, 4.4, 5.4, 7.2): those of a unit, of a poll, and of a RELEASE that the arbiter issued. -/

namespace Sys2Proof.Machine

/-! ### What the end of an exchange does to its lane -/

theorem Bay.startRecovery_eq (l : LaneId) (b : Bay) : b.startRecovery l = { b with lanes := b.recovering l } := by
  unfold Bay.startRecovery Bay.recovering
  by_cases h : b.recovery = 0
  · simp only [h, beq_self_eq_true, if_true]; rfl
  · simp only [beq_eq_false_iff_ne.2 h, h, Bool.false_eq_true, if_false]; rfl

theorem Bay.endUnit_eq (u : UnitRun) (b : Bay) : b.endUnit u = b.unitOver u := by
  unfold Bay.endUnit Bay.unitOver
  cases hp : u.place with
  | none => rfl
  | some p =>
    have hclose : (u.policy == .close && b.lanes[p.lane].state == .opened) = decide (u.policy = .close ∧ b.lanes[p.lane].state = .opened) := by
      rw [Bool.decide_and]; rfl
    dsimp only
    rw [hclose]
    simp only [decide_eq_true_eq]
    rfl

/-- The end of a unit whose lane has just been CLOSED. -/
theorem Bay.unitOver_of_shut {u : UnitRun} {p : LanePlace} {b : Bay} (hp : u.place = some p) (hx : b.exchange = none) :
    (b.setLane p.lane Lane.shut).unitOver u = { b with unit := none, lanes := b.lanes.set p.lane Lane.shut } := by
  have hlane : (b.setLane p.lane Lane.shut).lanes[p.lane] = Lane.shut := Vector.getElem_set_self _
  have hlanes : (b.setLane p.lane Lane.shut).lanes.set p.lane Lane.shut = b.lanes.set p.lane Lane.shut := Vector.set_set _ _
  have hunpinned : ({ Lane.shut with pinned := false, releasePending := if u.policy = .close ∧ Lane.shut.state = .opened then true else Lane.shut.releasePending } : Lane)
      = Lane.shut := by
    rw [if_neg fun h => nomatch h.2]
    rfl
  simp only [Bay.unitOver, hp, hlane, hunpinned, hlanes, hx]
  rfl

theorem Bay.afterRelease_of_recovery {u : UnitRun} {p : LanePlace} {b : Bay} (h : b.recovery ≠ 0) :
    b.afterRelease u p = { b with lanes := b.recovering p.lane, unit := some { u with phase := .awaitRecovery } } := by
  have hlane : (b.recovering p.lane)[p.lane] = { Lane.shut with state := .closing, page := b.lanes[p.lane].page, recoveryTimer := some b.recovery } := by
    rw [Bay.recovering, if_neg h]
    exact Vector.getElem_set_self _
  rw [Bay.afterRelease, Bay.startRecovery_eq]
  simp only [hlane]
  rfl

theorem Bay.afterRelease_of_no_recovery {u : UnitRun} {p : LanePlace} {b : Bay} (h : b.recovery = 0) : b.afterRelease u p = b.selects u p := by
  have hlanes : b.recovering p.lane = b.lanes.set p.lane Lane.shut := by rw [Bay.recovering, if_pos h]
  have hlane : (b.lanes.set p.lane Lane.shut)[p.lane] = Lane.shut := Vector.getElem_set_self _
  rw [Bay.afterRelease, Bay.startRecovery_eq, hlanes]
  simp only [hlane]
  exact congrArg (fun v : Vector Lane 4 => { b with lanes := v, unit := some { u with phase := .selecting }
                                                    exchange := some { op := .select p.lane p.page, timeout := b.policy.exchangeTimeout } })
    (Vector.set_set _ _)

/-! ### The answers, by the phase of the unit (Table 4-2) -/

section
variable {u : UnitRun} {p : LanePlace} (b : Bay) (data : Word)

theorem Bay.unitAck_of_selecting (h : u.phase = .selecting) (hp : u.place = some p) : b.unitAck u data = ((b.openLane p.lane).startData u, .going) := by
  simp only [Bay.unitAck, h, hp]

theorem Bay.unitAck_of_releasing (h : u.phase = .releasing) (hp : u.place = some p) : b.unitAck u data = (b.afterRelease u p, .going) := by
  simp only [Bay.unitAck, h, hp]

theorem Bay.unitNak_of_selecting (h : u.phase = .selecting) (hp : u.place = some p) :
    b.unitNak u = ((b.setLane p.lane Lane.shut).endUnit u, .failed .moduleNak) := by
  simp only [Bay.unitNak, h, hp]

theorem Bay.unitNak_of_releasing (h : u.phase = .releasing) (hp : u.place = some p) : b.unitNak u = (b.afterRelease u p, .going) := by
  simp only [Bay.unitNak, h, hp]

theorem Bay.unitNak_of_data {j : Nat} (h : u.phase = .reading j ∨ u.phase = .writing j) : b.unitNak u = (b.endUnit u, .failed .moduleNak) := by
  rcases h with h | h <;> simp only [Bay.unitNak, h]

/-- The bytes that a unit has kept once read exchange `j` is answered. -/
def UnitRun.gotWith (u : UnitRun) (j : Nat) (data : Word) : List Byte := u.got ++ keptBytes u.addr u.size u.width (exchangeAddr u.addr u.width j) data

theorem Bay.unitAck_of_reading_more {j : Nat} (h : u.phase = .reading j) (hj : j + 1 < exchangeCount u.size u.width) :
    b.unitAck u data = (b.issueRead { u with got := u.gotWith j data } (j + 1), .going) := by
  simp only [Bay.unitAck, h]
  exact if_pos hj

theorem Bay.unitAck_of_read {j : Nat} (h : u.phase = .reading j) (hj : exchangeCount u.size u.width ≤ j + 1) (hdir : u.dir = .read) :
    b.unitAck u data = (b.endUnit u, .completed (u.gotWith j data)) := by
  simp only [Bay.unitAck, h, hdir]
  exact if_neg (Nat.not_lt.2 hj)

theorem Bay.unitAck_of_fetched {j : Nat} (h : u.phase = .reading j) (hj : exchangeCount u.size u.width ≤ j + 1) (hdir : u.dir = .fetchAdd) :
    b.unitAck u data = (b.issueWrite { u with got := u.gotWith j data, value := fetchNew u.size (u.gotWith j data) u.value } 0,
      .fetched (u.gotWith j data) (fetchCarry u.size (u.gotWith j data) u.value)) := by
  rw [Bay.unitAck, h]
  dsimp only
  rw [if_neg (Nat.not_lt.2 hj)]
  simp only [hdir]
  rfl

theorem Bay.unitAck_of_writing_more {j : Nat} (h : u.phase = .writing j) (hj : j + 1 < exchangeCount u.size u.width) :
    b.unitAck u data = (b.issueWrite u (j + 1), .going) := by
  simp only [Bay.unitAck, h]
  exact if_pos hj

theorem Bay.unitAck_of_written {j : Nat} (h : u.phase = .writing j) (hj : exchangeCount u.size u.width ≤ j + 1) :
    b.unitAck u data = (b.endUnit u, .completed u.got) := by
  simp only [Bay.unitAck, h]
  exact if_neg (Nat.not_lt.2 hj)

end

/-! ### EXCHANGE_ANSWER -/

/-- An answer that is late, or for which no exchange is in progress, is discarded (R68). -/
theorem exec_exchangeAnswer_discarded {b : BayId} {late : Bool} {s : State} (h : late = true ∨ s.bays[b].exchange = none) (a : Answer) :
    exec (.exchangeAnswer b late a) s = .next s := by
  show execExchangeAnswer b late a s = _
  unfold execExchangeAnswer
  obtain rfl | hx := h
  · rfl
  · rw [hx]
    cases late <;> rfl

theorem exec_exchangeAnswer {b : BayId} {s : State} {x : Exchange} (hx : s.bays[b].exchange = some x) (a : Answer) :
    exec (.exchangeAnswer b false a) s = .next (((s.mapBay b (Bay.endExchange 0)).answered b x.op a).busRest b) := by
  show execExchangeAnswer b false a s = _
  simp only [execExchangeAnswer, hx]

/-- An answer to an exchange of the unit under way goes to the unit. -/
theorem State.answered_of_unit {b : BayId} {s : State} {op : ExchangeOp} {u : UnitRun} (hop : op ≠ .poll) (hu : s.bays[b].unit = some u) (data : Word) (w : StatusWord) :
    s.answered b op (.ack data w) = s.unitEnd b u.entry (s.bays[b].unitAck u data) ∧ s.answered b op .nak = s.unitEnd b u.entry (s.bays[b].unitNak u) := by
  cases op with
  | poll => exact absurd rfl hop
  | _ => simp only [State.answered, hu, and_self]

/-- A RELEASE of the arbiter's own that is answered starts the recovery of its lane. -/
theorem State.answered_of_release {b : BayId} {s : State} {l : LaneId} (hu : s.bays[b].unit = none) (a : Answer) :
    s.answered b (.release l) a = s.mapBay b (Bay.startRecovery l) := by
  cases a <;> simp only [State.answered, hu] <;> rfl

/-- The bay whose exchange has been answered. -/
def Bay.heard (b : Bay) : Bay := { b with exchange := none, timeouts := 0 }

/-- What an answer makes of a bay and its unit. -/
theorem exec_exchangeAnswer_of_unit {b : BayId} {s : State} {x : Exchange} {u : UnitRun} (hx : s.bays[b].exchange = some x) (hop : x.op ≠ .poll)
    (hu : s.bays[b].unit = some u) (data : Word) (w : StatusWord) :
    (∀ after result, s.bays[b].heard.unitAck u data = (after, result) →
      exec (.exchangeAnswer b false (.ack data w)) s = .next (((s.mapBay b fun _ => after).unitResult b u.entry result).busRest b))
    ∧ ∀ after result, s.bays[b].heard.unitNak u = (after, result) →
      exec (.exchangeAnswer b false .nak) s = .next (((s.mapBay b fun _ => after).unitResult b u.entry result).busRest b) := by
  have hsame : (s.mapBay b (Bay.endExchange 0)).bays[b] = s.bays[b].heard := State.mapBay_same b _ s
  obtain ⟨hack, hnak⟩ := State.answered_of_unit (s := s.mapBay b (Bay.endExchange 0)) hop (by rw [hsame]; exact hu) data w
  rw [hsame] at hack hnak
  have hend (after : Bay) (result : UnitResult) : (s.mapBay b (Bay.endExchange 0)).unitEnd b u.entry (after, result)
      = (s.mapBay b fun _ => after).unitResult b u.entry result :=
    congrArg (State.unitResult b u.entry result) (State.mapBay_mapBay b _ _ s)
  refine ⟨fun after result h => ?_, fun after result h => ?_⟩
  · rw [exec_exchangeAnswer hx, hack, h, hend]
  · rw [exec_exchangeAnswer hx, hnak, h, hend]

/-- Settles O46, by the phase of the lane preparation. -/
theorem lanePreparationAnswers : Obligations.LanePreparationAnswers := by
  intro s b x u p data w hx hop hu hp y ack nak
  obtain ⟨hack, hnak⟩ := exec_exchangeAnswer_of_unit hx hop hu data w
  refine ⟨fun hphase => ⟨⟨_, hack _ .going (Bay.unitAck_of_selecting _ data hphase hp), ?opened⟩, ?shut⟩, fun hphase c hc => ?released⟩
  case opened =>
    have hopen : y.openLane p.lane = { y with lanes := y.lanes.set p.lane { Lane.shut with
        state := .opened, page := y.lanes[p.lane].page, dwellExpired := y.dwell == 0, dwellTimer := if y.dwell = 0 then none else some y.dwell } } := by
      simp only [Bay.openLane, beq_iff_eq]
      rfl
    rw [← hopen]
    exact Bay.startData_begins u _
  case shut =>
    have hafter := hnak _ _ (Bay.unitNak_of_selecting _ hphase hp)
    rw [Bay.endUnit_eq, Bay.unitOver_of_shut hp rfl] at hafter
    exact hafter
  case released =>
    have hexec : exec c s = .next ((s.mapBay b fun _ => y.afterRelease u p).busRest b) := by
      obtain rfl | rfl := hc
      · exact hack _ .going (Bay.unitAck_of_releasing _ data hphase hp)
      · exact hnak _ .going (Bay.unitNak_of_releasing _ hphase hp)
    refine ⟨fun hr => ?_, fun hr => ?_⟩
    · rw [← Bay.afterRelease_of_recovery hr]
      exact hexec
    · rw [← Bay.afterRelease_of_no_recovery hr]
      exact hexec

/-! ### The end of a unit (R21, R65, R89, R97) -/

section
variable {b : BayId} {e : EntryId} {s : State}

theorem State.unitDone_of_read (h : s.tracker.entries[e].kind = .read) (bytes : List Byte) :
    s.unitDone b e bytes = (s.mapEntry e fun y => { y with buffer := wordsOfBytes bytes }).endEntry b e .ok := by
  simp only [State.unitDone, h]

theorem State.unitDone_of_write (h : s.tracker.entries[e].kind = .write ∨ s.tracker.entries[e].kind = .fetchAdd) (bytes : List Byte) :
    s.unitDone b e bytes = s.endEntry b e .ok := by
  rcases h with h | h <;> simp only [State.unitDone, h]

/-- A unit of a block raises its count, and one of a BLOCK_READ adds its bytes to the buffer. -/
theorem State.unitDone_of_block {buffer : List Word} {bytes : List Byte}
    (h : s.tracker.entries[e].kind = .blockRead ∨ s.tracker.entries[e].kind = .blockWrite)
    (hwrite : s.tracker.entries[e].kind = .blockWrite → buffer = s.tracker.entries[e].buffer)
    (hread : s.tracker.entries[e].kind = .blockRead → buffer =
      wordsOfBytes ((bytesOfWords s.tracker.entries[e].buffer).take (s.tracker.entries[e].unitsDone * s.tracker.entries[e].size) ++ bytes)) :
    s.unitDone b e bytes =
      let counted := s.mapEntry e fun z => { z with unitsDone := s.tracker.entries[e].unitsDone + 1, buffer := buffer }
      if s.tracker.entries[e].unitsDone + 1 = s.tracker.entries[e].count ∨ s.tracker.entries[e].discard = true then counted.endEntry b e .ok else counted := by
  obtain h | h := h
  · obtain rfl := hread h
    simp only [State.unitDone, h, Bool.or_eq_true, beq_iff_eq]
    rfl
  · obtain rfl := hwrite h
    simp only [State.unitDone, h, Bool.or_eq_true, beq_iff_eq]
    rfl

end

/-- Settles O47, by the phase of the data exchange and by its place in its half. -/
theorem dataExchangeAnswers : Obligations.DataExchangeAnswers := by
  intro s b x u data w hx hop hu y n ack nak count ended block completes
  obtain ⟨hack, hnak⟩ := exec_exchangeAnswer_of_unit hx hop hu data w
  have hcompletes {bytes : List Byte} (h : y.unitAck u data = (y.endUnit u, .completed bytes)) : completes bytes := by
    have hdone : ack = .next ((ended.unitDone b u.entry bytes).busRest b) := by
      have hafter := hack _ _ h
      rw [Bay.endUnit_eq] at hafter
      exact hafter
    refine ⟨fun hk => ?_, fun hk => ?_, fun hk buffer hwrite hread => ?_⟩
    · rw [hdone, State.unitDone_of_read (s := ended) hk]
    · rw [hdone, State.unitDone_of_write (s := ended) hk]
    · intro counted
      have hblock := State.unitDone_of_block (b := b) (s := ended) hk hwrite hread
      refine ⟨fun hover => ?_, fun hcount hdiscard => ?_⟩
      · rw [hdone, hblock]
        exact congrArg (fun v : State => Host.Outcome.next (v.busRest b)) (if_pos hover)
      · rw [hdone, hblock]
        exact congrArg (fun v : State => Host.Outcome.next (v.busRest b)) (if_neg (not_or.2 ⟨hcount, Bool.eq_false_iff.1 hdiscard⟩))
  refine ⟨fun j hphase => ⟨fun hj => ?_, fun hj hdir => ?_, fun hj hdir => ?_⟩, fun j hphase => ⟨fun hj => ?_, fun hj => ?_⟩, fun j hphase => ?_⟩
  · exact hack _ .going (Bay.unitAck_of_reading_more _ data hphase hj)
  · exact hcompletes (Bay.unitAck_of_read _ data hphase hj hdir)
  · exact hack _ (.fetched _ _) (Bay.unitAck_of_fetched _ data hphase hj hdir)
  · exact hack _ .going (Bay.unitAck_of_writing_more _ data hphase hj)
  · exact hcompletes (Bay.unitAck_of_written _ data hphase hj)
  · have hafter := hnak _ _ (Bay.unitNak_of_data _ hphase)
    rw [Bay.endUnit_eq] at hafter
    exact hafter

/-! ### Polls (7.2) -/

/-- A condition is raised exactly where its bit rises. -/
theorem State.raise_rise (b : BayId) (k : CondKind) (last new : Bool) (s : State) :
    (if !last && new then [k] else []).foldl (fun s k => s.raise b k) s = if last = false ∧ new = true then s.raise b k else s := by
  cases last <;> cases new <;> rfl

/-- Settles O48. -/
theorem pollAndReleaseAnswers : Obligations.PollAndReleaseAnswers := by
  intro s b data w a
  refine ⟨fun late h => exec_exchangeAnswer_discarded h a, fun x hx => ?_⟩
  intro y last polled s1 s2 s3 s4
  refine ⟨fun hop => ?poll, fun l hop hu => ?release⟩
  case poll =>
    have hpolled : (s.mapBay b (Bay.endExchange 0)).mapBay b Bay.payPoll = polled := State.mapBay_mapBay b _ _ s
    have hrises : (risesOf (s.mapBay b (Bay.endExchange 0)).bays[b].lastStatus w).foldl (fun s k => s.raise b k) polled = s3 := by
      rw [State.mapBay_same, risesOf, List.foldl_append, List.foldl_append, State.raise_rise, State.raise_rise, State.raise_rise]
      rfl
    have hbays : s3.bays = polled.bays := by
      have hraised (c : Prop) [Decidable c] (k : CondKind) (v : State) : (if c then v.raise b k else v).bays = v.bays := by
        split
        · exact State.raise_bays b k v
        · rfl
      exact (hraised _ _ _).trans ((hraised _ _ _).trans (hraised _ _ _))
    have hstate : s4.bays[b].state = y.state := by
      have hs4 : s4.bays[b] = { s3.bays[b] with lastStatus := w } := State.mapBay_same b _ s3
      have hpaid : polled.bays[b] = { y with owed := y.owed - 1 } := State.mapBay_same b _ s
      rw [hs4, hbays, hpaid]
    have hack : (s.mapBay b (Bay.endExchange 0)).answered b .poll (.ack data w) = if (!w.ready && y.state.arbitrates) = true then s4.faultBay b .moduleNotReady else s4 := by
      rw [← hstate]
      show State.pollAck b w _ = _
      rw [State.pollAck, hpolled, hrises]
    refine ⟨fun hw => ?_, fun hw hs => ?_, ?_⟩
    · rw [exec_exchangeAnswer hx, hop, hack, hw]
      rfl
    · rw [exec_exchangeAnswer hx, hop, hack, hw, if_pos (by rcases hs with h | h | h <;> rw [h] <;> rfl)]
    · rw [exec_exchangeAnswer hx, hop, ← hpolled]
      rfl
  case release =>
    have hsame : (s.mapBay b (Bay.endExchange 0)).bays[b] = y := State.mapBay_same b _ s
    rw [exec_exchangeAnswer hx, hop, State.answered_of_release (by rw [hsame]; exact hu), State.mapBay_mapBay, State.mapBay_const, Bay.startRecovery_eq]
    rfl

end Sys2Proof.Machine

/-! The timers of a bay in service (4.2, 7.1, 6.7.3): the dwell and the recovery of a lane, the poll timer and the wake timer. -/

namespace Sys2Proof.Machine

theorem State.mapBay_of_eq {b : BayId} {f : Bay → Bay} {s : State} (h : f s.bays[b] = s.bays[b]) : s.mapBay b f = s := by
  rw [State.mapBay_const, h, State.mapBay_const_self]

theorem State.settle_mapBay (b : BayId) (f : Bay → Bay) (s : State) : (s.mapBay b f).settle b = s.mapBay b fun y => (f y).settle := State.mapBay_mapBay b f _ s

theorem Bay.Sound.settle_eq {b : Bay} (h : b.Sound) : b.settle = b := by
  obtain ⟨-, -, -, hsettled, -⟩ := id h
  exact Bay.settle_of_settled hsettled h.depth_of_parking

/-! ### The dwell of a lane (R74, R76) -/

/-- The bay whose dwell on lane `l` has run out. -/
def Bay.dwelt (b : Bay) (l : LaneId) : Bay := b.setLane l { b.lanes[l] with dwellExpired := true, dwellTimer := none }

section
variable {l : LaneId} {b : Bay}

theorem Bay.dwellEnds_of_stopped (h : b.lanes[l].state ≠ .opened ∨ b.lanes[l].dwellTimer = none) : b.dwellEnds l = b := by
  refine if_neg fun hc => ?_
  obtain ⟨hs, ht⟩ := Bool.and_eq_true_iff.1 hc
  exact h.elim (fun hn => hn (eq_of_beq hs)) fun hn => by rw [hn] at ht; exact absurd ht (by decide)

theorem Bay.dwellEnds_of_running (hs : b.lanes[l].state = .opened) (ht : b.lanes[l].dwellTimer.isSome = true) :
    b.dwellEnds l = match b.unit with
      | some u =>
        match u.phase, u.place with
        | .awaitDwell, some p => if p.lane == l then (b.dwelt l).releaseFor u p else b.dwelt l
        | _, _ => b.dwelt l
      | none => if b.lanes[l].releasePending then (b.dwelt l).callArbiter else b.dwelt l := by
  rw [Bay.dwellEnds, if_pos (by rw [hs, ht]; rfl)]
  rfl

/-- A displacement that waited for the dwell issues its RELEASE. -/
theorem Bay.dwellEnds_of_displacement {u : UnitRun} {p : LanePlace} (hs : b.lanes[l].state = .opened) (ht : b.lanes[l].dwellTimer.isSome = true)
    (hu : b.unit = some u) (hphase : u.phase = .awaitDwell) (hp : u.place = some p) (hl : p.lane = l) :
    b.dwellEnds l = { b with lanes := b.lanes.set l { Lane.shut with state := .closing, page := b.lanes[l].page }
                             unit := some { u with phase := .releasing }
                             exchange := some { op := .release l, timeout := b.policy.exchangeTimeout } } := by
  obtain rfl := hl
  have hlane : (b.dwelt p.lane).lanes[p.lane] = { b.lanes[p.lane] with dwellExpired := true, dwellTimer := none } := Vector.getElem_set_self _
  have hrelease : b.dwellEnds p.lane = (b.dwelt p.lane).releaseFor u p := by
    rw [Bay.dwellEnds_of_running hs ht]
    simp only [hu, hphase, hp, beq_self_eq_true, if_true]
  have hlanes : (b.dwelt p.lane).lanes.set p.lane { Lane.shut with state := .closing, page := (b.dwelt p.lane).lanes[p.lane].page }
      = b.lanes.set p.lane { Lane.shut with state := .closing, page := b.lanes[p.lane].page } := by
    rw [hlane]
    exact Vector.set_set _ _
  rw [hrelease]
  exact congrArg (fun v : Vector Lane 4 => { b with lanes := v, unit := some { u with phase := .releasing }
                                                    exchange := some { op := .release p.lane, timeout := b.policy.exchangeTimeout } }) hlanes

/-- With no displacement waiting for it, the dwell of a lane whose release is pending calls the arbiter, which acts where no unit is under way. -/
theorem Bay.dwellEnds_of_no_displacement (hs : b.lanes[l].state = .opened) (ht : b.lanes[l].dwellTimer.isSome = true)
    (hnone : ∀ u p, b.unit = some u → u.place = some p → ¬ (u.phase = .awaitDwell ∧ p.lane = l)) :
    b.dwellEnds l = if b.lanes[l].releasePending then (b.dwelt l).callArbiter else b.dwelt l := by
  rw [Bay.dwellEnds_of_running hs ht]
  cases hu : b.unit with
  | none => rfl
  | some u =>
    have hbusy : (b.dwelt l).callArbiter = b.dwelt l := Bay.callArbiter_of_not_busFree fun h => by
      obtain ⟨-, -, hfree⟩ := h
      exact absurd (hu.symm.trans hfree) nofun
    rw [hbusy, ite_self]
    dsimp only
    split
    case h_1 p hphase hp => exact if_neg fun hl => hnone u p hu hp ⟨hphase, eq_of_beq hl⟩
    case h_2 => rfl

/-! ### The recovery of a lane (R75, R76) -/

theorem Bay.recoveryEnds_of_stopped (h : b.lanes[l].state ≠ .closing ∨ b.lanes[l].recoveryTimer = none) : b.recoveryEnds l = b := by
  refine if_neg fun hc => ?_
  obtain ⟨hs, ht⟩ := Bool.and_eq_true_iff.1 hc
  exact h.elim (fun hn => hn (eq_of_beq hs)) fun hn => by rw [hn] at ht; exact absurd ht (by decide)

theorem Bay.recoveryEnds_of_running (hs : b.lanes[l].state = .closing) (ht : b.lanes[l].recoveryTimer.isSome = true) :
    b.recoveryEnds l = match b.unit with
      | some u =>
        match u.phase, u.place with
        | .awaitRecovery, some p => if p.lane == l then (b.setLane l Lane.shut).selectFor u p else b.setLane l Lane.shut
        | _, _ => b.setLane l Lane.shut
      | none => b.setLane l Lane.shut := by
  rw [Bay.recoveryEnds, if_pos (by rw [hs, ht]; rfl)]
  rfl

/-- A unit that waited for the recovery issues its SELECT. -/
theorem Bay.recoveryEnds_of_unit {u : UnitRun} {p : LanePlace} (hs : b.lanes[l].state = .closing) (ht : b.lanes[l].recoveryTimer.isSome = true)
    (hu : b.unit = some u) (hphase : u.phase = .awaitRecovery) (hp : u.place = some p) (hl : p.lane = l) : b.recoveryEnds l = b.selects u p := by
  obtain rfl := hl
  rw [Bay.recoveryEnds_of_running hs ht]
  simp only [hu, hphase, hp, beq_self_eq_true, if_true]
  exact congrArg (fun v : Vector Lane 4 => { b with lanes := v, unit := some { u with phase := .selecting }
                                                    exchange := some { op := .select p.lane p.page, timeout := b.policy.exchangeTimeout } })
    (Vector.set_set _ _)

theorem Bay.recoveryEnds_of_no_unit (hs : b.lanes[l].state = .closing) (ht : b.lanes[l].recoveryTimer.isSome = true)
    (hnone : ∀ u p, b.unit = some u → u.place = some p → ¬ (u.phase = .awaitRecovery ∧ p.lane = l)) : b.recoveryEnds l = b.setLane l Lane.shut := by
  rw [Bay.recoveryEnds_of_running hs ht]
  cases hu : b.unit with
  | none => rfl
  | some u =>
    dsimp only
    split
    case h_1 p hphase hp => exact if_neg fun hl => hnone u p hu hp ⟨hphase, eq_of_beq hl⟩
    case h_2 => rfl

end

/-! ### The poll timer (R124, R125) -/

/-- The effective interval is the override, or else that of the identity record, or else the default. -/
theorem Bay.pollInterval_eq {b : Bay} {n : Nat} (hid : b.identity.isSome = true) (hover : b.policy.pollOverride ≠ 0 → n = b.policy.pollOverride * 100)
    (hown : b.policy.pollOverride = 0 → ∀ id, b.identity = some id → (idPollInterval id ≠ 0 → n = idPollInterval id * 100) ∧ (idPollInterval id = 0 → n = 100000)) :
    b.pollInterval = n := by
  obtain ⟨id, hid⟩ := Option.isSome_iff_exists.1 hid
  by_cases ho : b.policy.pollOverride = 0
  · obtain ⟨hset, hdefault⟩ := hown ho id hid
    by_cases hi : idPollInterval id = 0
    · simp [Bay.pollInterval, ho, hid, hi, hdefault hi, Config.defaultPollUnits, Config.pollUnit]
    · simp [Bay.pollInterval, ho, hid, hi, hset hi, Config.pollUnit]
  · simp [Bay.pollInterval, ho, hover ho, Config.pollUnit]

theorem Bay.pollTick_of_lt {b : Bay} (h : b.owed < 8) : b.pollTick = ({ b with pollTimer := some b.pollInterval, owed := b.owed + 1 } : Bay).callArbiter.wakeCheck := by
  rw [Bay.pollTick]
  exact congrArg Bay.wakeCheck (if_pos h)

theorem Bay.pollTick_of_full {b : Bay} (h : b.owed = 8) (hs : b.state ≠ .parked) : b.pollTick = { b with pollTimer := some b.pollInterval } := by
  rw [Bay.pollTick]
  refine (congrArg Bay.wakeCheck (if_neg (by rw [h]; decide))).trans ?_
  exact Bay.wakeCheck_of_not_parked hs

/-- A PARKED bay that holds no more than sound PARKED bays hold, with its timer and its count set. -/
theorem Bay.Sound.dormant_ticked {b : Bay} (h : b.Sound) (hs : b.state = .parked) (n owed : Nat) : Bay.Dormant { b with pollTimer := some n, owed := owed } := by
  obtain ⟨htimer, hexchange, hunit, -, -, hcause, -⟩ := h.atRest hs
  obtain ⟨hout, ⟨hid, -, -, hdepth, -⟩, -⟩ := h
  rw [hs] at hid hdepth
  exact { outputs := hout, state := by rw [hs]; rfl, timer := htimer, cause := hcause, park := by rw [hs]; rfl, exchange := hexchange, unit := hunit
          depth := hdepth, identity := hid }

/-- The count that rises to 8 wakes a PARKED bay. -/
theorem Bay.pollTick_of_parked {b : Bay} (hs : b.state = .parked) (ho : b.owed = 7) :
    b.pollTick = Bay.startWake { b with pollTimer := some b.pollInterval, owed := 8 } := by
  have hcall : Bay.callArbiter { b with pollTimer := some b.pollInterval, owed := b.owed + 1 } = { b with pollTimer := some b.pollInterval, owed := b.owed + 1 } :=
    Bay.callArbiter_of_not_busFree fun hfree => by
      have harb := hfree.1
      rw [hs] at harb
      exact absurd harb (by decide)
  rw [Bay.pollTick_of_lt (by omega), hcall, Bay.wakeCheck, if_pos (by simp [hs, ho, Config.owedMax]), ho]

/-- Short of that, a sound bay that ticks does nothing else. -/
theorem Bay.Sound.pollTick_settle {b : Bay} (h : b.Sound) (ho : b.owed < 7 ∨ b.owed = 7 ∧ b.state ≠ .parked) :
    b.pollTick.settle = ({ b with pollTimer := some b.pollInterval, owed := b.owed + 1 } : Bay).callArbiter := by
  have hcheck : ({ b with pollTimer := some b.pollInterval, owed := b.owed + 1 } : Bay).callArbiter.wakeCheck
      = ({ b with pollTimer := some b.pollInterval, owed := b.owed + 1 } : Bay).callArbiter := by
    by_cases hs : b.state = .parked
    · obtain ⟨-, -, ⟨-, -, -, -, -, -, -, -, hparked⟩, -⟩ := h
      obtain ⟨hq, -, hdrain⟩ := hparked hs
      have hne : b.owed ≠ 7 := ho.elim Nat.ne_of_lt fun h => absurd hs h.2
      rw [Bay.wakeCheck, if_neg (by simp [hq, hdrain, Config.owedMax, hne, Bay.callArbiter])]
    · exact Bay.wakeCheck_of_not_parked hs
  obtain ⟨-, -, -, hsettled, -⟩ := id h
  rw [Bay.pollTick_of_lt (by omega), hcheck]
  exact Bay.settle_of_settled (hsettled.congr rfl rfl rfl rfl rfl) h.depth_of_parking

theorem exec_pollTimerExpiry {b : BayId} {s : State} (h : s.bays[b].pollTimer.isSome = true) :
    exec (.pollTimerExpiry b) s = .next (if s.bays[b].owed < 8 then s.mapBay b fun y => y.pollTick.settle
      else (s.mapBay b fun y => y.pollTick.settle).raise b .pollOverrun) := by
  obtain ⟨n, hn⟩ := Option.isSome_iff_exists.1 h
  show execPollTimerExpiry b s = _
  simp only [execPollTimerExpiry, hn, State.settle_mapBay]
  rfl

theorem exec_pollTimerExpiry_of_none {b : BayId} {s : State} (h : s.bays[b].pollTimer = none) : exec (.pollTimerExpiry b) s = .next s := by
  show execPollTimerExpiry b s = _
  simp only [execPollTimerExpiry, h]

/-! ### The wake timer (R116, R135) -/

theorem exec_wakeTimerExpiry_of_not {b : BayId} {s : State} (h : s.bays[b].state ≠ .waking ∨ s.bays[b].timer = none) : exec (.wakeTimerExpiry b) s = .next s := by
  refine if_neg fun hc => ?_
  obtain ⟨hs, ht⟩ := Bool.and_eq_true_iff.1 hc
  exact h.elim (fun hn => hn (eq_of_beq hs)) fun hn => by rw [hn] at ht; exact absurd ht (by decide)

theorem exec_wakeTimerExpiry {b : BayId} {s : State} (hs : s.bays[b].state = .waking) (ht : s.bays[b].timer.isSome = true) :
    exec (.wakeTimerExpiry b) s = .next ((s.mapBay b Bay.wakeEnds).settle b) :=
  if_pos (by rw [hs, ht]; rfl)

/-- What the end of a wake makes of a sound bay: its bus is free, so that the arbiter it calls has a decision point. -/
theorem Bay.Sound.wakeEnds {b : Bay} (h : b.Sound) (hs : b.state = .waking) :
    (b.drainRequested = false → b.wakeEnds = { b with state := .online, timer := none, depth := none, timeouts := 0, due := true })
      ∧ (b.drainRequested = true →
          b.wakeEnds = { b with state := .draining, timer := none, depth := none, timeouts := 0, due := true, drainRequested := false }) := by
  have hcause := h.cause_eq_none (by rw [hs]; decide)
  have hin : b.state.inService = true := by rw [hs]; rfl
  have hunit := h.unit_eq_none (by rw [hs]; decide) (by rw [hs]; decide)
  obtain ⟨hout, -, ⟨-, -, -, hexchange, hforced, -⟩, -⟩ := h
  have hexchange' : b.exchange = none := Option.not_isSome_iff_eq_none.1 (mt hexchange (by rw [hs]; decide))
  have hforced' : b.forced = false := Bool.eq_false_iff.2 (mt hforced (by rw [hs]; decide))
  refine ⟨fun hd => ?_, fun hd => ?_⟩
  · rw [Bay.wakeEnds_of_free hout hin hexchange' hunit hd, ← hcause]
  · have hmiddle : Bay.OutputsSound { b.enter .online with timeouts := 0 } := by
      rw [Bay.enter_of_inService hout hin (st := .online) rfl]
      obtain ⟨hmain, hreset, haux⟩ := hout
      rw [hs] at hmain hreset
      exact ⟨hmain, hreset, haux⟩
    have hstate : ({ b.enter .online with timeouts := 0 } : Bay).state.inService = true := by
      rw [Bay.enter_of_inService hout hin (st := .online) rfl]
      rfl
    have hdrain : ({ b.enter .online with timeouts := 0 } : Bay).drainRequested = true := by
      rw [Bay.enter_of_inService hout hin (st := .online) rfl]
      exact hd
    rw [Bay.wakeEnds]
    refine (congrArg Bay.callArbiter (if_pos hdrain)).trans ?_
    rw [Bay.enter_of_inService hmiddle hstate (st := .draining) rfl, Bay.enter_of_inService hout hin (st := .online) rfl]
    refine (Bay.callArbiter_of_busFree ?_).trans ?_
    · exact ⟨.inr (.inr rfl), hexchange', hunit⟩
    simp [BayState.hasDepth, BayState.arbitrates, hforced', hcause]

/-! ### The obligation -/

/-- What one tick of a PARKED bay at seven owed polls makes of it (R125, R134). -/
theorem Bay.Sound.pollTick_settle_of_parked {b : Bay} (h : b.Sound) (hs : b.state = .parked) (ho : b.owed = 7) :
    (b.depth = some .light → b.pollTick.settle = { b with pollTimer := some b.pollInterval, owed := 8, state := .waking, timer := some 5 })
      ∧ ∀ id, b.identity = some id → b.depth = some .deep →
        (idDeepWake id ≠ 0 → b.pollTick.settle = { b with pollTimer := some b.pollInterval, owed := 8, state := .waking, timer := some (idDeepWake id) })
        ∧ (idDeepWake id = 0 → b.pollTick.settle =
            { b with pollTimer := some b.pollInterval, owed := 8, state := .online, depth := none, timeouts := 0, due := true }) := by
  have hdormant := h.dormant_ticked hs b.pollInterval 8
  obtain ⟨-, -, -, hforced, hdue, -, hdrain⟩ := h.atRest hs
  have hne (n : Nat) (hw : ({ b with pollTimer := some b.pollInterval, owed := 8 } : Bay).wakeTime = n) (hn : n ≠ 0) :
      b.pollTick.settle = { b with pollTimer := some b.pollInterval, owed := 8, state := .waking, timer := some n } := by
    rw [Bay.pollTick_of_parked hs ho, hdormant.startWake_of_ne_zero (hw ▸ hn), hw]
    refine (Bay.settle_of_not_ending (by nofun) (by nofun)).trans ?_
    simp only [hforced, hdue]
  refine ⟨fun hd => hne 5 (Bay.wakeTime_of_light hd) (by decide), fun id hid hd => ⟨hne _ (Bay.wakeTime_of_deep hd hid), fun hn => ?_⟩⟩
  rw [Bay.pollTick_of_parked hs ho, hdormant.startWake_of_eq_zero ((Bay.wakeTime_of_deep hd hid).trans hn) hdrain]
  refine (Bay.settle_of_not_ending (by nofun) (by nofun)).trans ?_
  simp only [hforced]

/-- Settles O51, timer by timer. -/
theorem timersInService : Obligations.TimersInService := by
  intro s b l y ln
  refine ⟨⟨Bay.settle_settles, rfl, rfl⟩, fun h => congrArg Host.Outcome.next (State.mapBay_of_eq (Bay.dwellEnds_of_stopped h)), fun hs ht => ?dwell,
    fun h hy => ?recovered, fun hs ht => ⟨fun u p hu hphase hp hl => ?select, fun hnone => ?shut⟩, exec_pollTimerExpiry_of_none, fun ht n hover hown hy => ?poll,
    exec_wakeTimerExpiry_of_not, fun hs ht hy => ?wake⟩
  case dwell =>
    intro y1
    refine ⟨fun u p hu hphase hp hl => ?_, fun hnone => ?_⟩
    · rw [← Bay.dwellEnds_of_displacement hs ht hu hphase hp hl]
      rfl
    · exact congrArg (fun v : Bay => Host.Outcome.next (s.mapBay b fun _ => v)) (Bay.dwellEnds_of_no_displacement hs ht hnone)
  case recovered =>
    refine congrArg Host.Outcome.next ((State.settle_mapBay b _ s).trans (State.mapBay_of_eq ?_))
    rw [Bay.recoveryEnds_of_stopped h]
    exact hy.settle_eq
  case select => exact congrArg (fun v : Bay => Host.Outcome.next ((s.mapBay b fun _ => v).settle b)) (Bay.recoveryEnds_of_unit hs ht hu hphase hp hl)
  case shut => exact congrArg (fun v : Bay => Host.Outcome.next ((s.mapBay b fun _ => v).settle b)) (Bay.recoveryEnds_of_no_unit hs ht hnone)
  case poll =>
    have hid : y.identity.isSome = true := by
      obtain ⟨-, ⟨hid, hpoll, -⟩, -⟩ := hy
      exact (hid.trans hpoll.symm).trans ht
    obtain rfl := Bay.pollInterval_eq hid hover hown
    have hexec := exec_pollTimerExpiry ht
    have htick (ho : y.owed < 8) : exec (.pollTimerExpiry b) s = .next (s.mapBay b fun _ => y.pollTick.settle) := hexec.trans (congrArg Host.Outcome.next (if_pos ho))
    refine ⟨fun ho => ?_, fun ho hs => ⟨_, htick (by omega), fun hd => ?_, fun id hid hd => ⟨fun hn => ?_, fun hn => ?_⟩⟩, fun ho => ?_⟩
    · rw [htick (by omega), hy.pollTick_settle ho]
    · rw [(hy.pollTick_settle_of_parked hs ho).1 hd]
    · rw [((hy.pollTick_settle_of_parked hs ho).2 id hid hd).1 hn]
    · rw [((hy.pollTick_settle_of_parked hs ho).2 id hid hd).2 hn]
    · have hparked : y.state ≠ .parked := fun hs => by
        obtain ⟨-, -, ⟨-, -, -, -, -, -, -, -, hparked⟩, -⟩ := hy
        exact absurd (hparked hs).2.1 (by rw [ho]; decide)
      have hfull : y.pollTick.settle = { y with pollTimer := some y.pollInterval } := by
        obtain ⟨-, -, -, hsettled, -⟩ := id hy
        rw [Bay.pollTick_of_full ho hparked]
        exact Bay.settle_of_settled (hsettled.congr rfl rfl rfl rfl rfl) hy.depth_of_parking
      rw [hexec, if_neg (by show ¬ y.owed < 8; omega), State.mapBay_const]
      exact congrArg (fun v : Bay => Host.Outcome.next ((s.mapBay b fun _ => v).raise b .pollOverrun)) hfull
  case wake =>
    intro woken
    obtain ⟨hfree, hdrain⟩ := hy.wakeEnds hs
    refine ⟨fun hd => ?_, fun hd => ?_⟩
    · rw [exec_wakeTimerExpiry hs ht, State.settle_mapBay, State.mapBay_const]
      exact congrArg (fun v : Bay => Host.Outcome.next (s.mapBay b fun _ => v)) ((congrArg Bay.settle (hfree hd)).trans (Bay.settle_of_not_ending nofun nofun))
    · rw [exec_wakeTimerExpiry hs ht]
      exact congrArg (fun v : Bay => Host.Outcome.next ((s.mapBay b fun _ => v).settle b)) (hdrain hd)

end Sys2Proof.Machine

/-! The life of a module before it is in service (Chapter 6): its seating, and its bring-up by timers and inputs. -/

namespace Sys2Proof.Machine

/-! ### From one state outside service into another (Table 6-1) -/

/-- Outside service, where no identity read is left, an entry changes the outputs and the timer, and begins the identity read of IDENTIFYING. -/
theorem Bay.HoldsNothing.enter {b : Bay} (h : b.HoldsNothing) (hmain : b.mainRail = b.state.powered) (hcause : b.cause = .none) (hid : b.state ≠ .identifying)
    {st : BayState} (hst : st.inService = false) :
    b.enter st = { b with state := st, mainRail := st.powered, auxRail := st.powered && b.auxWanted, moduleReset := st.inReset
                          railGood := b.railGood && !(b.state.powered && !st.powered), timer := none
                          idLine := if st = .identifying then [.openingMark] else b.idLine } := by
  obtain ⟨hidentity, hpoll, howed, hforced, hdue, hdepth⟩ := h
  obtain ⟨hpark, harb⟩ := BayState.of_not_inService hst
  simp [Bay.enter, hst, hpark, harb, hmain, hcause, hid, hidentity, hpoll, howed, hforced, hdue, hdepth]

theorem Bay.Sound.timer_of_timed {b : Bay} (h : b.Sound) (hs : b.state.timed = true) : b.timer.isSome = true := by
  obtain ⟨-, ⟨-, -, htimer, -⟩, -⟩ := h
  exact htimer.trans hs

/-- The outputs of a sound bay that stays without power. -/
theorem Bay.Sound.enter_of_unpowered {b : Bay} (h : b.Sound) (hs : b.state.powered = false) (hf : b.state ≠ .faulted) {st : BayState} (hst : st.powered = false) :
    b.enter st = { b with state := st, timer := none } := by
  obtain ⟨hservice, hreset, hid⟩ := BayState.of_not_powered hs
  obtain ⟨hservice', hreset', hid'⟩ := BayState.of_not_powered hst
  obtain ⟨hmain, houtput, haux⟩ := h.1
  rw [(h.holdsNothing hservice).enter hmain (h.cause_eq_none hf) hid hservice']
  rw [hmain, hs] at haux
  have haux' : b.auxRail = false := haux
  simp [hs, hst, hid', hreset', hmain, houtput, hreset, haux']

theorem Bay.Sound.enterSeating {b : Bay} (h : b.Sound) (hs : b.state = .empty) : b.enterSeating = { b with state := .seating, timer := some 20000 } := by
  rw [Bay.enterSeating, h.enter_of_unpowered (by rw [hs]; rfl) (by rw [hs]; decide) rfl]
  rfl

/-! ### PRESENCE_CONTACT_CHANGE (R104, R121) -/

theorem Bay.setContact_enter (c : Contact) (made : Bool) (st : BayState) (b : Bay) : (b.setContact c made).enter st = (b.enter st).setContact c made := by
  cases c <;> rfl

theorem Bay.setContact_enterSeating (c : Contact) (made : Bool) (b : Bay) : (b.setContact c made).enterSeating = b.enterSeating.setContact c made := by
  cases c <;> rfl

theorem Bay.setContact_eq_self_iff (c : Contact) (made : Bool) (b : Bay) : b.setContact c made = b ↔ b.contact c = made := by
  refine ⟨fun h => ?_, fun h => ?_⟩
  · rw [← h]
    cases c <;> rfl
  · subst h
    cases c <;> rfl

theorem exec_presenceContactChange_of_same {b : BayId} {c : Contact} {made : Bool} {s : State} (h : s.bays[b].setContact c made = s.bays[b]) :
    exec (.presenceContactChange b c made) s = .next s :=
  if_pos (beq_iff_eq.2 ((Bay.setContact_eq_self_iff c made _).1 h))

theorem exec_presenceContactChange {b : BayId} {c : Contact} {made : Bool} {s : State} (h : s.bays[b].setContact c made ≠ s.bays[b]) :
    exec (.presenceContactChange b c made) s = .next ((s.mapBay b (Bay.setContact c made)).contactChanged b made) :=
  if_neg (mt eq_of_beq (mt (Bay.setContact_eq_self_iff c made _).2 h))

section
variable {b : BayId} {s : State}

theorem State.contactChanged_of_empty (hs : s.bays[b].state = .empty) (made : Bool) :
    s.contactChanged b made = if s.bays[b].contactFirst && s.bays[b].contactSecond then s.mapBay b Bay.enterSeating else s := by
  simp only [State.contactChanged, hs]

theorem State.contactChanged_of_seating (hs : s.bays[b].state = .seating) : s.contactChanged b false = s.mapBay b (Bay.enter .empty) := by
  simp only [State.contactChanged, hs]
  rfl

theorem State.contactChanged_of_made (hs : s.bays[b].state ≠ .empty) : s.contactChanged b true = s := by
  cases h : s.bays[b].state with
  | empty => exact absurd h hs
  | _ => simp only [State.contactChanged, h, if_true]

theorem State.contactChanged_of_removal (he : s.bays[b].state ≠ .empty) (hs : s.bays[b].state ≠ .seating) : s.contactChanged b false = s.removal b := by
  cases h : s.bays[b].state with
  | empty => exact absurd h he
  | seating => exact absurd h hs
  | _ => simp only [State.contactChanged, h, Bool.false_eq_true, if_false]

end

/-- Settles O52, by the state of the bay and the level of the contact. -/
theorem presenceContactsSeatAndRemove : Obligations.PresenceContactsSeatAndRemove := by
  intro s b c made hb y x becomes
  have hx : x = y.setContact c made := by cases c <;> rfl
  have hsame : (s.mapBay b (Bay.setContact c made)).bays[b] = x := (State.mapBay_same b _ s).trans hx.symm
  have hnoted : s.mapBay b (Bay.setContact c made) = s.mapBay b fun _ => x := by rw [hx]; rfl
  have hstate : x.state = y.state := by cases c <;> rfl
  have hexec {v : State} (hne : x ≠ y) (hv : (s.mapBay b fun _ => x).contactChanged b made = v) : exec (.presenceContactChange b c made) s = .next v := by
    rw [exec_presenceContactChange (hx ▸ hne), hnoted, hv]
  rw [hnoted] at hsame
  refine ⟨fun heq => ?same, fun hne hs hfirst hsecond => hexec hne ?seats, fun hne hs hnot => hexec hne ?half, fun hne hs hmade => hexec hne ?unseats,
    fun hne hs hmade => hexec hne ?made, fun hne he hs hmade => hexec hne ?removed⟩
  case same =>
    refine (exec_presenceContactChange_of_same (hx.symm.trans heq)).trans (congrArg Host.Outcome.next ?_)
    exact (State.mapBay_const_self b s).symm
  case seats =>
    have hboth : (x.contactFirst && x.contactSecond) = true := by rw [hfirst, hsecond]; rfl
    rw [State.contactChanged_of_empty (by rw [hsame, hstate]; exact hs), hsame]
    refine (if_pos hboth).trans ((State.mapBay_mapBay b _ _ s).trans (congrArg (fun v : Bay => s.mapBay b fun _ => v) ?_))
    rw [hx, Bay.setContact_enterSeating, hb.enterSeating hs]
    cases c <;> rfl
  case half =>
    rw [State.contactChanged_of_empty (by rw [hsame, hstate]; exact hs), hsame, if_neg (by rw [Bool.and_eq_true]; exact hnot)]
  case unseats =>
    subst hmade
    rw [State.contactChanged_of_seating (by rw [hsame, hstate]; exact hs)]
    refine (State.mapBay_mapBay b _ _ s).trans (congrArg (fun v : Bay => s.mapBay b fun _ => v) ?_)
    rw [hx, Bay.setContact_enter, hb.enter_of_unpowered (by rw [hs]; rfl) (by rw [hs]; decide) rfl]
    cases c <;> rfl
  case made =>
    subst hmade
    exact State.contactChanged_of_made (by rw [hsame, hstate]; exact hs)
  case removed =>
    subst hmade
    exact State.contactChanged_of_removal (by rw [hsame, hstate]; exact he) (by rw [hsame, hstate]; exact hs)

/-! ### Bring-up (R105, R106, R108, R109) -/

/-- A bay that is HELD, STARTING or POWERING, as an entry into the next of these states or IDENTIFYING finds it. -/
theorem Bay.HoldsNothing.enter_powered {b : Bay} (h : b.HoldsNothing) (hout : b.OutputsSound) (hs : b.state.powered = true) (hcause : b.cause = .none)
    (hid : b.state ≠ .identifying) {st : BayState} (hst : st.inService = false) (hp : st.powered = true) :
    b.enter st = { b with state := st, moduleReset := st.inReset, timer := none, idLine := if st = .identifying then [.openingMark] else b.idLine } := by
  obtain ⟨hmain, -, haux⟩ := hout
  rw [h.enter hmain hcause hid hst]
  rw [hmain, hs] at haux
  simp [hp, hmain, hs, haux]

theorem exec_railTimerExpiry_of_not {b : BayId} {s : State} (h : s.bays[b].state ≠ .powering) : exec (.railTimerExpiry b) s = .next s :=
  if_neg fun hc => h (eq_of_beq (Bool.and_eq_true_iff.1 hc).1)

theorem exec_holdTimerExpiry_of_not {b : BayId} {s : State} (h : s.bays[b].state ≠ .held) : exec (.holdTimerExpiry b) s = .next s :=
  if_neg fun hc => h (eq_of_beq (Bool.and_eq_true_iff.1 hc).1)

theorem exec_readyTimerExpiry_of_not {b : BayId} {s : State} (h : s.bays[b].state ≠ .starting) : exec (.readyTimerExpiry b) s = .next s :=
  if_neg fun hc => h (eq_of_beq (Bool.and_eq_true_iff.1 hc).1)

theorem exec_debounceExpiry_of_not {b : BayId} {s : State} (h : s.bays[b].state ≠ .seating) : exec (.debounceExpiry b) s = .next s :=
  if_neg fun hc => h (eq_of_beq (Bool.and_eq_true_iff.1 hc).1)

theorem exec_debounceExpiry {b : BayId} {s : State} (hb : s.bays[b].Sound) (h : s.bays[b].state = .seating) :
    exec (.debounceExpiry b) s = .next ((s.raise b .presence).mapBay b fun _ => s.bays[b].seated) := by
  refine (if_pos ?_).trans (congrArg Host.Outcome.next ?_)
  · rw [hb.timer_of_timed (by rw [h]; rfl), h]; rfl
  · rw [State.mapBay_const, State.raise_bays]

/-- The hold expiry releases module reset, and module ready, where it is asserted already, takes the bay on (R108, R109). -/
theorem Bay.Sound.enterStarting {b : Bay} (h : b.Sound) (hs : b.state = .held) :
    b.enterStarting = { b with state := if b.moduleReady then .identifying else .starting, moduleReset := false
                               timer := if b.moduleReady then none else some (b.policy.readyTimeout * 1000)
                               idLine := if b.moduleReady then [.openingMark] else b.idLine } := by
  have hnothing := h.holdsNothing (by rw [hs]; rfl)
  have hcause := h.cause_eq_none (by rw [hs]; decide)
  have henter : b.enter .starting = { b with state := .starting, moduleReset := false, timer := none } :=
    hnothing.enter_powered h.1 (by rw [hs]; rfl) hcause (by rw [hs]; decide) rfl rfl
  rw [Bay.enterStarting, henter]
  by_cases hready : b.moduleReady = true
  · obtain ⟨hmain, -, haux⟩ := h.1
    rw [hs] at hmain
    have hout : Bay.OutputsSound { b with state := .starting, moduleReset := false, timer := some (b.policy.readyTimeout * 1000) } := ⟨hmain, rfl, haux⟩
    obtain ⟨hidentity, hpoll, howed, hforced, hdue, hdepth⟩ := hnothing
    have hnothing' : Bay.HoldsNothing { b with state := .starting, moduleReset := false, timer := some (b.policy.readyTimeout * 1000) } :=
      ⟨hidentity, hpoll, howed, hforced, hdue, hdepth⟩
    have hid := hnothing'.enter_powered hout rfl hcause nofun (st := .identifying) rfl rfl
    refine (if_pos hready).trans (hid.trans ?_)
    simp only [hready, if_true]
    rfl
  · refine (if_neg hready).trans ?_
    simp only [hready]
    rfl

/-- Rail-good takes a POWERING bay to HELD (R106). -/
theorem Bay.Sound.railReport_of_powering {b : Bay} (h : b.Sound) (hs : b.state = .powering) :
    b.railReport true = { b with railGood := true, state := .held, timer := some 10000 } := by
  obtain ⟨hidentity, hpoll, howed, hforced, hdue, hdepth⟩ := h.holdsNothing (by rw [hs]; rfl)
  have hnothing : Bay.HoldsNothing { b with railGood := true } := ⟨hidentity, hpoll, howed, hforced, hdue, hdepth⟩
  have hreset : b.moduleReset = true := by
    obtain ⟨⟨-, hreset, -⟩, -⟩ := h
    rw [hreset, hs]; rfl
  have henter := hnothing.enter_powered (st := .held) (by exact h.1) (by show b.state.powered = true; rw [hs]; rfl) (h.cause_eq_none (by rw [hs]; decide))
    (by show b.state ≠ _; rw [hs]; decide) rfl rfl
  have hreport : b.railReport true = ({ b with railGood := true } : Bay).enterHeld := by
    have hgood : (true && b.state != .faulted) = true := by rw [hs]; rfl
    exact (if_pos (by rw [hs]; rfl)).trans (congrArg (fun g : Bool => ({ b with railGood := g } : Bay).enterHeld) hgood)
  rw [hreport, Bay.enterHeld, henter]
  simp only [hreset]
  rfl

/-- Outside POWERING the report is noted, and FAULTED does not note a rail-good. -/
theorem Bay.railReport_of_noted {b : Bay} {level : Bool} (h : ¬ (level = true ∧ b.state = .powering)) :
    b.railReport level = { b with railGood := level && b.state != .faulted } := by
  refine if_neg fun hc => ?_
  obtain ⟨hlevel, hs⟩ := Bool.and_eq_true_iff.1 hc
  exact h ⟨hlevel, eq_of_beq hs⟩

/-- Module ready takes a STARTING bay to IDENTIFYING, where the identity read begins (R109, R110). -/
theorem Bay.Sound.readyReport_of_starting {b : Bay} (h : b.Sound) (hs : b.state = .starting) :
    b.readyReport true = { b with moduleReady := true, state := .identifying, timer := none, idLine := [.openingMark] } := by
  obtain ⟨hidentity, hpoll, howed, hforced, hdue, hdepth⟩ := h.holdsNothing (by rw [hs]; rfl)
  have hnothing : Bay.HoldsNothing { b with moduleReady := true } := ⟨hidentity, hpoll, howed, hforced, hdue, hdepth⟩
  have hreset : b.moduleReset = false := by
    obtain ⟨⟨-, hreset, -⟩, -⟩ := h
    rw [hreset, hs]; rfl
  have henter := hnothing.enter_powered (st := .identifying) (by exact h.1) (by show b.state.powered = true; rw [hs]; rfl) (h.cause_eq_none (by rw [hs]; decide))
    (by show b.state ≠ _; rw [hs]; decide) rfl rfl
  have hreport : b.readyReport true = ({ b with moduleReady := true } : Bay).enterIdentifying := by
    exact if_pos (by rw [hs]; rfl)
  rw [hreport, Bay.enterIdentifying, henter]
  simp only [hreset]
  rfl

theorem Bay.readyReport_of_noted {b : Bay} {level : Bool} (h : b.state ≠ .starting ∨ level = false) : b.readyReport level = { b with moduleReady := level } := by
  refine if_neg fun hc => ?_
  obtain ⟨hlevel, hs⟩ := Bool.and_eq_true_iff.1 hc
  exact h.elim (fun hn => hn (eq_of_beq hs)) fun hn => absurd (hn.symm.trans hlevel) (by decide)

/-- Settles O53, event by event. -/
theorem bringUpFollowsTimersAndInputs : Obligations.BringUpFollowsTimersAndInputs := by
  intro s b level hb y becomes
  have hinput {f : Bay → Bay} {z : Bay} (h : f y = z) : s.mapBay b f = s.mapBay b fun _ => z := congrArg (fun v : Bay => s.mapBay b fun _ => v) h
  refine ⟨exec_debounceExpiry_of_not, fun hs hp => ?manual, fun hs hp => ?auto, fun hs hl => ?railHeld, fun hs hf => ?railNoted, fun h => ?railLost, fun hs => ?railTimer,
    exec_railTimerExpiry_of_not, fun hs => ?hold, exec_holdTimerExpiry_of_not, fun hs hl => ?ready, fun h => ?readyNoted, fun hs => ?readyTimer,
    exec_readyTimerExpiry_of_not⟩
  case manual =>
    have hseated : y.seated = y.enter .unpowered := by simp only [Bay.seated, hp]
    rw [exec_debounceExpiry hb hs, hseated, hb.enter_of_unpowered (by rw [hs]; rfl) (by rw [hs]; decide) rfl]
  case auto =>
    have hseated : y.seated = y.enterPowering := by simp only [Bay.seated, hp]
    rw [exec_debounceExpiry hb hs, hseated, Bay.enterPowering_of_not_powered hb (by rw [hs]; rfl), ← hb.cause_eq_none (by rw [hs]; decide)]
    rfl
  case railHeld =>
    subst hl
    exact congrArg Host.Outcome.next (hinput (hb.railReport_of_powering hs))
  case railNoted =>
    refine congrArg Host.Outcome.next (hinput ((Bay.railReport_of_noted fun h => hs h.2).trans ?_))
    rw [bne_iff_ne.2 hf, Bool.and_true]
  case railLost =>
    have hnot : ¬ (level = true ∧ y.state = .powering) := by
      rintro ⟨hlevel, hs⟩
      exact h.elim (fun hn => absurd (hn.symm.trans hlevel) (by decide)) fun hn => absurd (hn.symm.trans hs) (by decide)
    refine congrArg Host.Outcome.next (hinput ((Bay.railReport_of_noted hnot).trans ?_))
    have hlost : (level && y.state != .faulted) = false := by
      obtain hl | hf := h
      · rw [hl, Bool.false_and]
      · rw [hf]; exact Bool.and_false level
    rw [hlost]
  case railTimer => exact if_pos (by rw [hb.timer_of_timed (by rw [hs]; rfl), hs]; rfl)
  case hold =>
    refine (if_pos (by rw [hb.timer_of_timed (by rw [hs]; rfl), hs]; rfl)).trans (congrArg Host.Outcome.next (hinput ?_))
    exact hb.enterStarting hs
  case ready =>
    subst hl
    exact congrArg Host.Outcome.next (hinput (hb.readyReport_of_starting hs))
  case readyNoted => exact congrArg Host.Outcome.next (hinput (Bay.readyReport_of_noted h))
  case readyTimer => exact if_pos (by rw [hb.timer_of_timed (by rw [hs]; rfl), hs]; rfl)

end Sys2Proof.Machine

/-! The identity read (6.5, Table 9-10): the bytes of the record, its fields, and the entry into ONLINE. -/

namespace Sys2Proof.Machine

/-! ### The record that the bytes of a data phase make -/

theorem identityOfBytes_get {bytes : List (BitVec 8)} (h : bytes.length = 32) (j : Fin 32) : (identityOfBytes bytes)[j] = bytes.getD j 0 := by
  have hj : j.val < bytes.length := by rw [h]; exact j.isLt
  rw [identityOfBytes, tabulate_get, getD_of_lt _ hj, getD_of_lt _ hj]

theorem identityOfBytes_toList {bytes : List (BitVec 8)} (h : bytes.length = 32) : (identityOfBytes bytes).toList = bytes := by
  refine List.ext_getElem (by rw [Vector.length_toList, h]) fun j hj hj' => ?_
  rw [Vector.getElem_toList]
  exact (identityOfBytes_get h ⟨j, h ▸ hj'⟩).trans (getD_of_lt _ hj')

theorem idAccepted_iff {bytes : List (BitVec 8)} (h : bytes.length = 32) :
    idAccepted (identityOfBytes bytes) = true
      ↔ 256 ∣ (bytes.map BitVec.toNat).sum ∧ (bytes.getD 0 0).toNat = 1 ∧ 1 ≤ (bytes.getD 4 0).toNat ∧ (bytes.getD 4 0).toNat ≤ 4 := by
  have hformat : idFormat (identityOfBytes bytes) = (bytes.getD 0 0).toNat := congrArg BitVec.toNat (identityOfBytes_get h 0)
  have hlanes : idLaneCount (identityOfBytes bytes) = (bytes.getD 4 0).toNat := congrArg BitVec.toNat (identityOfBytes_get h 4)
  rw [idAccepted, hformat, hlanes, identityOfBytes_toList h, Bool.and_eq_true, Bool.and_eq_true, Bool.and_eq_true, beq_iff_eq, beq_iff_eq, decide_eq_true_eq,
    decide_eq_true_eq, Nat.dvd_iff_mod_eq_zero, and_assoc, and_assoc]

/-- The two bytes of a field, least significant first. -/
theorem identityOfBytes_pair {bytes : List (BitVec 8)} (h : bytes.length = 32) (i j : Fin 32) :
    (identityOfBytes bytes)[i].toNat + 256 * (identityOfBytes bytes)[j].toNat = (bytes.getD i 0).toNat + 256 * (bytes.getD j 0).toNat := by
  rw [identityOfBytes_get h, identityOfBytes_get h]

theorem lineAnswered_eq {bytes : List (BitVec 8)} (h : bytes.length = 32) :
    lineAnswered (identityOfBytes bytes) = [.openingMark, .address 0x4D .write true, .offset 0 true, .openingMark, .address 0x4D .read true]
      ++ (List.range 32).map fun j => .data (bytes.getD j 0) (j != 31) := by
  refine congrArg (lineToRead true ++ ·) ?_
  rw [show List.range 32 = (List.finRange 32).map Fin.val by decide, List.map_map]
  refine List.map_congr_left fun j _ => ?_
  have hlast : decide (j.val < 31) = (j.val != 31) := by
    rw [Bool.eq_iff_iff, decide_eq_true_eq, bne_iff_ne]
    omega
  rw [identityOfBytes_get h, hlast]
  rfl

/-! ### The entry into ONLINE (R112) -/

/-- What an IDENTIFYING bay becomes with an accepted record. -/
theorem Bay.Sound.enterOnline {b : Bay} (h : b.Sound) (hs : b.state = .identifying) (line : List LineAct) (r : IdentityRecord) :
    ∃ n, ({ b with identity := some r } : Bay).pollInterval = n
      ∧ ({ b with idLine := line } : Bay).enterOnline r =
        { b with state := .online, identity := some r, lanes := Vector.replicate 4 Lane.shut, owed := 0, timeouts := 0, forced := false
                 pollTimer := some n, due := true, idLine := line ++ [.closingMark], lastStatus := zeroStatus } := by
  have hcause := h.cause_eq_none (by rw [hs]; decide)
  have hunit := h.unit_eq_none (by rw [hs]; decide) (by rw [hs]; decide)
  obtain ⟨hidentity, hpoll, howed, hforced, hdue, hdepth⟩ := h.holdsNothing (by rw [hs]; rfl)
  obtain ⟨⟨hmain, hreset, haux⟩, ⟨-, -, htimer, -⟩, ⟨-, -, -, hexchange, -⟩, -⟩ := h
  have hexchange' : b.exchange = none := Option.not_isSome_iff_eq_none.1 (mt hexchange (by rw [hs]; decide))
  rw [hs] at hmain hreset htimer
  have hmain' : b.mainRail = true := hmain
  have hreset' : b.moduleReset = false := hreset
  have htimer' : b.timer = none := Option.isNone_iff_eq_none.1 (Option.isSome_eq_false_iff.1 htimer)
  rw [hmain', Bool.true_and] at haux
  have henter : ({ b with idLine := line } : Bay).enter .online = { b with state := .online, idLine := line ++ [.closingMark] } := by
    simp [Bay.enter, BayState.powered, BayState.inReset, BayState.inService, BayState.arbitrates, BayState.hasDepth, hs, hmain', hreset', haux, htimer', hidentity,
      hpoll, howed, hforced, hdue, hdepth, hcause]
  refine ⟨_, rfl, ?_⟩
  rw [Bay.enterOnline, henter]
  exact Bay.callArbiter_of_busFree ⟨.inl rfl, hexchange', hunit⟩

theorem exec_idNoAnswer_of_not {slot : IdSlot} {s : State} (h : s.bays[slot.bay].state ≠ .identifying) : exec (.idNoAnswer slot) s = .next s :=
  if_neg (mt eq_of_beq h)

theorem exec_identityReadEnd_of_not {b : BayId} {bytes : List (BitVec 8)} {s : State} (h : s.bays[b].state ≠ .identifying) :
    exec (.identityReadEnd b bytes) s = .next s :=
  if_neg (mt eq_of_beq h)

theorem exec_identityReadEnd {b : BayId} {bytes : List (BitVec 8)} {s : State} (h : s.bays[b].state = .identifying) :
    exec (.identityReadEnd b bytes) s = .next (s.identityRead b (identityOfBytes bytes)) :=
  if_pos (beq_iff_eq.2 h)

/-- Settles O54. -/
theorem identityReadBringsBayOnline : Obligations.IdentityReadBringsBayOnline := by
  intro s b p bytes hlen hb y byte accepted asked line stopped
  have haccepted : idAccepted (identityOfBytes bytes) = true ↔ accepted := idAccepted_iff hlen
  have hline : (s.mapBay b (Bay.readLine (lineAnswered (identityOfBytes bytes)))) = s.mapBay b fun _ => { y with idLine := line } := by
    rw [lineAnswered_eq hlen]
    rfl
  refine ⟨fun hs => ?stops, fun hs => ⟨exec_idNoAnswer_of_not hs, exec_identityReadEnd_of_not hs⟩, fun hs hn => ?bad, fun hs ha => ?online⟩
  case stops =>
    refine (if_pos (beq_iff_eq.2 hs)).trans ?_
    cases p <;> rfl
  case bad =>
    rw [exec_identityReadEnd hs, State.identityRead, hline]
    exact congrArg Host.Outcome.next (if_neg (mt haccepted.1 hn))
  case online =>
    obtain ⟨n, hn, henter⟩ := hb.enterOnline hs line (identityOfBytes bytes)
    have hpoll : idPollInterval (identityOfBytes bytes) = byte 7 + 256 * byte 8 := identityOfBytes_pair hlen 7 8
    have hpages : idMemoryPages (identityOfBytes bytes) = byte 5 + 256 * byte 6 := identityOfBytes_pair hlen 5 6
    have hwake : idDeepWake (identityOfBytes bytes) = byte 11 + 256 * byte 12 := identityOfBytes_pair hlen 11 12
    have hfield (j : Fin 32) : (identityOfBytes bytes)[j].toNat = byte j := congrArg BitVec.toNat (identityOfBytes_get hlen j)
    refine ⟨identityOfBytes bytes, n, identityOfBytes_toList hlen, fun x hx => ⟨?_, ?_, ?_, ?_, ?_⟩, hpoll, hpages, hwake, fun ho => ?_, fun ho hi => ?_, fun ho hi => ?_, ?_⟩
    · rw [Bay.laneCount, hx]; exact hfield 4
    · rw [Bay.memoryPages, hx]; exact hpages
    · rw [Bay.dwell, hx]; exact hfield 9
    · rw [Bay.recovery, hx]; exact hfield 10
    · rw [Bay.deepWake, hx]; exact hwake
    · rw [← hn]
      exact Bay.pollInterval_eq rfl (fun _ => rfl) fun h => absurd h ho
    · rw [← hn, ← hpoll]
      refine Bay.pollInterval_eq rfl (fun h => absurd ho h) fun _ r hr => ?_
      obtain rfl := Option.some.inj hr
      exact ⟨fun _ => rfl, fun h => absurd (hpoll.symm.trans h) hi⟩
    · rw [← hn]
      refine Bay.pollInterval_eq rfl (fun h => absurd ho h) fun _ r hr => ?_
      obtain rfl := Option.some.inj hr
      exact ⟨fun h => absurd (hpoll.trans hi) h, fun _ => rfl⟩
    · rw [exec_identityReadEnd hs, State.identityRead, hline]
      refine congrArg Host.Outcome.next ((if_pos (haccepted.2 ha)).trans (congrArg (fun v : State => v.raise b .online) ?_))
      exact (State.mapBay_mapBay b _ _ s).trans (congrArg (fun v : Bay => s.mapBay b fun _ => v) henter)

end Sys2Proof.Machine

/-! The tracker and the bay queues together (3.1, 3.4, R42): what an operation on one entry must leave so that they agree, while an event has taken some entries from their queues and not yet ended them. -/

namespace Sys2Proof.Machine

/-! ### One entry and the lists it stands in -/

/-- The record `x` agrees with the lists of the tracker (`listed`: the entry is taken) and the bay queues (`queued b`: it stands in that of `b`); `out` is set while the event that ends the entry has taken it from its queue, or has taken the entry and not yet given it a state. A DONE entry that is not posted may still be without its response. -/
structure Entry.Filed (x : Entry) (listed : Prop) (queued : BayId → Prop) (out : Prop) : Prop where
  inUse : listed → ¬ out → x.state ≠ .free
  held : listed → x.state = .held → x.xlat.isSome = true ∧ ¬ out
  waiting : listed → x.state = .waiting → x.kind = .sync ∧ x.posted = false ∧ x.response = none
  response : listed → x.response.isSome = true → x.posted = true ∨ x.state = .done
  done : listed → x.state = .done → x.response.isSome = true ∨ x.posted = false
  placed : listed → x.state.atBay = true → x.xlat.isSome = true
  queue : ∀ b, queued b ↔ listed ∧ x.state.atBay = true ∧ ¬ out ∧ ∃ t, x.xlat = some t ∧ t.bay = b

namespace Entry.Filed

variable {x y : Entry} {listed out : Prop} {queued : BayId → Prop}

theorem not_queued (h : x.Filed listed queued out) (hs : x.state.atBay = false) (b : BayId) : ¬ queued b := fun hq => by
  obtain ⟨-, hat, -⟩ := (h.queue b).1 hq
  exact absurd (hs.symm.trans hat) (by decide)

/-- A listed entry that is not posted has no response before it is DONE. -/
theorem response_none (h : x.Filed listed queued out) (hl : listed) (hs : x.state ≠ .done) (hp : x.posted = false) : x.response = none := by
  cases hr : x.response with
  | none => rfl
  | some r => exact ((h.response hl (by rw [hr]; rfl)).elim (fun hp' => by rw [hp] at hp'; cases hp') fun hd => absurd hd hs)

/-- An entry that is not listed stands in no queue. -/
theorem of_unlisted (hl : ¬ listed) (hq : ∀ b, ¬ queued b) : x.Filed listed queued out where
  inUse h := absurd h hl
  held h := absurd h hl
  waiting h := absurd h hl
  response h := absurd h hl
  done h := absurd h hl
  placed h := absurd h hl
  queue b := iff_of_false (hq b) fun h => hl h.1

/-- A DONE entry that stands in no queue. -/
theorem of_done (hs : x.state = .done) (hr : x.response.isSome = true ∨ x.posted = false) (hq : ∀ b, ¬ queued b) : x.Filed listed queued out where
  inUse _ _ := by rw [hs]; decide
  held _ h := absurd (hs.symm.trans h) (by decide)
  waiting _ h := absurd (hs.symm.trans h) (by decide)
  response _ _ := .inr hs
  done _ _ := hr
  placed _ h := by rw [hs] at h; exact absurd h (by decide)
  queue b := iff_of_false (hq b) fun h => by rw [hs] at h; exact absurd h.2.1 (by decide)

/-- A change that leaves the state, the translation and the marks that the lists are told by. -/
theorem congr (h : x.Filed listed queued out) (hs : y.state = x.state) (hx : y.xlat = x.xlat) (hk : y.kind = x.kind) (hp : y.posted = x.posted)
    (hr : y.response = x.response) : y.Filed listed queued out where
  inUse := by rw [hs]; exact h.inUse
  held := by rw [hs, hx]; exact h.held
  waiting := by rw [hs, hk, hp, hr]; exact h.waiting
  response := by rw [hs, hp, hr]; exact h.response
  done := by rw [hs, hp, hr]; exact h.done
  placed := by rw [hs, hx]; exact h.placed
  queue := by rw [hs, hx]; exact h.queue

/-- From one state at the bay to another. -/
theorem atBay (h : x.Filed listed queued out) (hs : x.state.atBay = true) {st : EntryState} (hst : st.atBay = true) :
    ({ x with state := st } : Entry).Filed listed queued out where
  inUse _ _ hh := by rw [show st = .free from hh] at hst; exact absurd hst (by decide)
  held _ hh := by rw [show st = .held from hh] at hst; exact absurd hst (by decide)
  waiting _ hh := by rw [show st = .waiting from hh] at hst; exact absurd hst (by decide)
  response hl hr := (h.response hl hr).imp_right fun hd => by rw [hd] at hs; exact absurd hs (by decide)
  done _ hh := by rw [show st = .done from hh] at hst; exact absurd hst (by decide)
  placed hl _ := h.placed hl hs
  queue b := by rw [h.queue b]; exact ⟨fun ⟨hl, _, hrest⟩ => ⟨hl, hst, hrest⟩, fun ⟨hl, _, hrest⟩ => ⟨hl, hs, hrest⟩⟩

/-- The response of a DONE entry is made ready. -/
theorem readied (h : x.Filed listed queued out) (hs : x.state = .done) (r : Response) (n : Nat) :
    ({ x with response := some r, seq := some n } : Entry).Filed listed queued out :=
  of_done hs (.inl rfl) (h.not_queued (by rw [hs]; rfl))

end Entry.Filed

/-! ### What an operation on one entry does to the tracker's lists -/

/-- A new entry at the end of a list. -/
theorem nodup_concat {l : List EntryId} {e : EntryId} (h : l.Nodup) (he : e ∉ l) : (l ++ [e]).Nodup :=
  List.nodup_append.2 ⟨h, List.nodup_cons.2 ⟨List.not_mem_nil, List.nodup_nil⟩, fun _ hx _ hy hxy => he (List.mem_singleton.1 hy ▸ hxy ▸ hx)⟩

/-- From `t` to `u` only the record of `e` changes, and `e` stays in the order taken or leaves it. -/
structure Tracker.Touched (t u : Tracker) (e : EntryId) : Prop where
  others : ∀ x, x ≠ e → u.entries[x] = t.entries[x]
  taken : u.taken = t.taken ∨ u.taken = t.taken.filter (· != e)

theorem takeWhile_filter_of_pos {p : EntryId → Bool} {x : EntryId} (hx : p x = true) (l : List EntryId) :
    (l.filter p).takeWhile (· != x) = (l.takeWhile (· != x)).filter p := by
  induction l with
  | nil => rfl
  | cons y l ih =>
    by_cases hy : y = x
    · subst hy
      rw [List.filter_cons_of_pos hx, List.takeWhile_cons_of_neg (by simp), List.takeWhile_cons_of_neg (by simp), List.filter_nil]
    · have hne : (y != x) = true := bne_iff_ne.2 hy
      rw [List.takeWhile_cons_of_pos (p := (· != x)) hne]
      by_cases hp : p y = true
      · rw [List.filter_cons_of_pos hp, List.filter_cons_of_pos hp, List.takeWhile_cons_of_pos (p := (· != x)) hne, ih]
      · rw [List.filter_cons_of_neg hp, List.filter_cons_of_neg hp, ih]

theorem mem_filter_ne {l : List EntryId} {e x : EntryId} : x ∈ l.filter (· != e) ↔ x ∈ l ∧ x ≠ e := by
  rw [List.mem_filter, bne_iff_ne]

namespace Tracker.Touched

variable {t u : Tracker} {e : EntryId}

theorem mem_of_mem (h : t.Touched u e) {x : EntryId} (hx : x ∈ u.taken) : x ∈ t.taken := by
  rcases h.taken with ht | ht <;> rw [ht] at hx
  · exact hx
  · exact (mem_filter_ne.1 hx).1

theorem mem_iff (h : t.Touched u e) {x : EntryId} (hx : x ≠ e) : x ∈ u.taken ↔ x ∈ t.taken := by
  rcases h.taken with ht | ht <;> rw [ht]
  rw [mem_filter_ne, and_iff_left hx]

theorem nodup (h : t.Touched u e) (hn : t.taken.Nodup) : u.taken.Nodup := by
  rcases h.taken with ht | ht <;> rw [ht]
  · exact hn
  · exact hn.filter _

/-- The entries taken before another are the same but for `e`. -/
theorem mem_before_iff (h : t.Touched u e) {x y : EntryId} (hx : x ∈ u.taken) (hy : y ≠ e) : y ∈ u.before x ↔ y ∈ t.before x := by
  rcases h.taken with ht | ht <;> rw [ht] at hx <;> rw [Tracker.before, Tracker.before, ht]
  rw [takeWhile_filter_of_pos (p := (· != e)) (bne_iff_ne.2 (mem_filter_ne.1 hx).2), mem_filter_ne, and_iff_left hy]

theorem mem_before_of_mem (h : t.Touched u e) {x y : EntryId} (hx : x ∈ u.taken) (hy : y ∈ u.before x) : y ∈ t.before x := by
  rcases h.taken with ht | ht <;> rw [ht] at hx <;> rw [Tracker.before, ht] at hy
  · exact hy
  · rw [takeWhile_filter_of_pos (p := (· != e)) (bne_iff_ne.2 (mem_filter_ne.1 hx).2)] at hy
    exact (mem_filter_ne.1 hy).1

end Tracker.Touched

theorem Tracker.mem_taken_of_mem_before {t : Tracker} {x y : EntryId} (h : y ∈ t.before x) : y ∈ t.taken := (List.takeWhile_prefix _).subset h

theorem Tracker.ne_of_mem_before {t : Tracker} {x y : EntryId} (h : y ∈ t.before x) : y ≠ x := bne_iff_ne.1 (List.all_eq_true.1 (List.all_takeWhile (p := (· != x))) y h)

/-! ### The operations on one entry -/

theorem State.mapEntry_touched (e : EntryId) (f : Entry → Entry) (s : State) : s.tracker.Touched (s.mapEntry e f).tracker e where
  others _ hx := State.mapEntry_other hx f s
  taken := .inl rfl

theorem State.freeEntry_touched (e : EntryId) (s : State) : s.tracker.Touched (s.freeEntry e).tracker e where
  others _ hx := State.freeEntry_other hx s
  taken := .inr (s.freeEntry_taken e)

theorem State.makeReady_touched (e : EntryId) (r : Response) (s : State) : s.tracker.Touched (s.makeReady e r).tracker e where
  others _ hx := State.makeReady_other hx r s
  taken := .inl rfl

theorem State.syncDone_touched (e : EntryId) (s : State) : s.tracker.Touched (s.syncDone e).tracker e where
  others _ hx := State.syncDone_other hx s
  taken := .inl rfl

/-! ### The state as a whole -/

/-- The tracker and the bay queues agree, but for the entries of `X`, which the event has taken, from their queues or from the intake. -/
structure State.Filed (s : State) (X : EntryId → Prop) : Prop where
  taken : s.tracker.taken.Nodup
  queues : ∀ b : BayId, s.bays[b].queue.Nodup
  entry : ∀ e : EntryId, s.tracker.entries[e].Filed (e ∈ s.tracker.taken) (fun b : BayId => e ∈ s.bays[b].queue) (X e)
  unit : ∀ (b : BayId) (u : UnitRun), s.bays[b].unit = some u → u.entry ∈ s.bays[b].queue ∧ s.tracker.entries[u.entry].state = .running

namespace State.Filed

variable {s u : State} {X Y : EntryId → Prop} {e : EntryId} {b : BayId}

theorem mem_taken (h : s.Filed X) (hq : e ∈ s.bays[b].queue) : e ∈ s.tracker.taken := (((h.entry e).queue b).1 hq).1

theorem atBay (h : s.Filed X) (hq : e ∈ s.bays[b].queue) : s.tracker.entries[e].state.atBay = true := (((h.entry e).queue b).1 hq).2.1

theorem not_out (h : s.Filed X) (hq : e ∈ s.bays[b].queue) : ¬ X e := by
  obtain ⟨-, -, hout, -⟩ := ((h.entry e).queue b).1 hq
  exact hout

/-- An entry stands in the queue of one bay alone. -/
theorem bay_unique (h : s.Filed X) {c : BayId} (hb : e ∈ s.bays[b].queue) (hc : e ∈ s.bays[c].queue) : b = c := by
  obtain ⟨-, -, -, t, ht, hbay⟩ := ((h.entry e).queue b).1 hb
  obtain ⟨-, -, -, t', ht', hbay'⟩ := ((h.entry e).queue c).1 hc
  obtain rfl := Option.some.inj (ht.symm.trans ht')
  exact hbay.symm.trans hbay'

theorem out_congr (h : s.Filed X) (hX : ∀ e ∈ s.tracker.taken, s.tracker.entries[e].state ≠ .done → (X e ↔ Y e)) : s.Filed Y where
  taken := h.taken
  queues := h.queues
  entry e :=
    { inUse := fun hl ho hf => (h.entry e).inUse hl (mt (hX e hl (by rw [hf]; decide)).1 ho) hf
      held := fun hl hs => ((h.entry e).held hl hs).imp_right (mt (hX e hl (by rw [hs]; decide)).2)
      waiting := (h.entry e).waiting, response := (h.entry e).response, done := (h.entry e).done, placed := (h.entry e).placed
      queue := fun b => ((h.entry e).queue b).trans (and_congr_right fun hl => and_congr_right fun ha => and_congr_left fun _ =>
        not_congr (hX e hl fun hd => by rw [hd] at ha; cases ha)) }
  unit := h.unit

/-- An operation on one entry that reaches no bay. -/
theorem touch_out (h : s.Filed X) (hX : ∀ x, x ≠ e → (X x ↔ Y x)) (hbays : u.bays = s.bays) (ht : s.tracker.Touched u.tracker e)
    (he : u.tracker.entries[e].Filed (e ∈ u.tracker.taken) (fun b : BayId => e ∈ s.bays[b].queue) (Y e))
    (hrun : ∀ (b : BayId) (r : UnitRun), s.bays[b].unit = some r → r.entry = e → u.tracker.entries[e].state = .running) : u.Filed Y where
  taken := ht.nodup h.taken
  queues := by rw [hbays]; exact h.queues
  entry x := by
    rw [hbays]
    by_cases hx : x = e
    · subst hx; exact he
    · have hiff : (x ∈ u.tracker.taken) = (x ∈ s.tracker.taken) := propext (ht.mem_iff hx)
      have hout : Y x = X x := propext (hX x hx).symm
      rw [ht.others x hx, hiff, hout]
      exact h.entry x
  unit b r hr := by
    rw [hbays] at hr ⊢
    obtain ⟨hmem, hstate⟩ := h.unit b r hr
    refine ⟨hmem, ?_⟩
    by_cases hx : r.entry = e
    · subst hx; exact hrun b r hr rfl
    · rw [ht.others _ hx]; exact hstate

theorem touch (h : s.Filed X) (hbays : u.bays = s.bays) (ht : s.tracker.Touched u.tracker e)
    (he : u.tracker.entries[e].Filed (e ∈ u.tracker.taken) (fun b : BayId => e ∈ s.bays[b].queue) (X e))
    (hrun : ∀ (b : BayId) (r : UnitRun), s.bays[b].unit = some r → r.entry = e → u.tracker.entries[e].state = .running) : u.Filed X :=
  h.touch_out (fun _ _ => .rfl) hbays ht he hrun

/-- No unit is one of an entry that does not run. -/
theorem unit_ne (h : s.Filed X) (hs : s.tracker.entries[e].state ≠ .running) (b : BayId) (r : UnitRun) (hr : s.bays[b].unit = some r) : r.entry ≠ e :=
  fun heq => hs (heq ▸ (h.unit b r hr).2)

/-- A change of a record that leaves what the lists are told by. -/
theorem mapEntry_congr (h : s.Filed X) (f : Entry → Entry) (hs : (f s.tracker.entries[e]).state = s.tracker.entries[e].state)
    (hx : (f s.tracker.entries[e]).xlat = s.tracker.entries[e].xlat) (hk : (f s.tracker.entries[e]).kind = s.tracker.entries[e].kind)
    (hp : (f s.tracker.entries[e]).posted = s.tracker.entries[e].posted) (hr : (f s.tracker.entries[e]).response = s.tracker.entries[e].response) :
    (s.mapEntry e f).Filed X := by
  refine h.touch rfl (s.mapEntry_touched e f) ?_ fun b r hu hre => ?_
  · rw [State.mapEntry_same]
    exact (h.entry e).congr hs hx hk hp hr
  · rw [State.mapEntry_same, hs]
    exact hre ▸ (h.unit b r hu).2

/-- An entry that is at its bay goes to another state there; a unit of it runs on only where it is RUNNING. -/
theorem mapEntry_atBay (h : s.Filed X) (hs : s.tracker.entries[e].state.atBay = true) {st : EntryState} (hst : st.atBay = true)
    (hrun : st = .running ∨ ∀ (b : BayId) (r : UnitRun), s.bays[b].unit = some r → r.entry ≠ e) : (s.mapEntry e fun y => { y with state := st }).Filed X := by
  refine h.touch rfl (s.mapEntry_touched e _) ?_ fun b r hu hre => ?_
  · rw [State.mapEntry_same]
    exact (h.entry e).atBay hs hst
  · rw [State.mapEntry_same]
    exact hrun.elim id fun hn => absurd hre (hn b r hu)

/-- An entry that stands in no queue and is no unit's is freed. -/
theorem freeEntry (h : s.Filed X) (hq : ∀ b : BayId, e ∉ s.bays[b].queue) : (s.freeEntry e).Filed X := by
  refine h.touch rfl (s.freeEntry_touched e) (Entry.Filed.of_unlisted ?_ hq) fun b r hr hre => absurd (hre ▸ (h.unit b r hr).1) (hq b)
  rw [s.freeEntry_taken e, mem_filter_ne]
  exact fun hm => hm.2 rfl

/-- Such an entry goes DONE. -/
theorem mapEntry_done (h : s.Filed X) (f : Entry → Entry) (hq : ∀ b : BayId, e ∉ s.bays[b].queue) (hs : (f s.tracker.entries[e]).state = .done)
    (hr : (f s.tracker.entries[e]).response.isSome = true ∨ (f s.tracker.entries[e]).posted = false) : (s.mapEntry e f).Filed X := by
  refine h.touch rfl (s.mapEntry_touched e f) ?_ fun b r hu hre => absurd (hre ▸ (h.unit b r hu).1) (hq b)
  rw [State.mapEntry_same]
  exact Entry.Filed.of_done hs hr hq

theorem syncDone (h : s.Filed X) (he : e ∈ s.tracker.taken) (hs : s.tracker.entries[e].state = .waiting) : (s.syncDone e).Filed X := by
  have hq := (h.entry e).not_queued (by rw [hs]; rfl)
  refine h.touch rfl (s.syncDone_touched e) ?_ fun b r hu hre => absurd (hre ▸ (h.unit b r hu).1) (hq b)
  rw [State.syncDone_same]
  exact Entry.Filed.of_done rfl (.inr ((h.entry e).waiting he hs).2.1) hq

theorem readyDone (h : s.Filed X) (hs : s.tracker.entries[e].state = .done) : (s.readyDone e).Filed X := by
  refine h.touch rfl (s.makeReady_touched e _) ?_ fun b r hu hre => absurd hre (h.unit_ne (by rw [hs]; decide) b r hu)
  rw [State.readyDone, State.makeReady_same]
  exact (h.entry e).readied hs _ _

theorem readyIfDone (h : s.Filed X) (e : EntryId) : (s.readyIfDone e).Filed X := by
  unfold State.readyIfDone
  split
  · next hu =>
    simp only [Entry.unanswered, Bool.and_eq_true, beq_iff_eq] at hu
    exact h.readyDone hu.1.1
  · exact h

theorem readyThese (h : s.Filed X) (es : List EntryId) : (s.readyThese es).Filed X :=
  foldl_kept (P := fun v : State => v.Filed X) (fun _ e hv => hv.readyIfDone e) es s h

end State.Filed

end Sys2Proof.Machine

/-! What the tracker's operations keep of the agreement between the tracker and the bay queues (R42, R49, R53, R56, R58, R62). -/

namespace Sys2Proof.Machine

/-! ### The end of a posted entry's work (R49) -/

theorem State.postedFailure_bays (x : Entry) (st : Status) (s : State) : (s.postedFailure x st).bays = s.bays := by
  unfold State.postedFailure
  split
  · rw [State.raise_bays, State.offer_bays]
  · rw [State.offer_bays]

/-- The posted failure path sets a flag of the tracker and leaves its lists. -/
theorem State.postedFailure_tracker (x : Entry) (st : Status) (s : State) :
    (s.postedFailure x st).tracker = { s.tracker with postedFault := s.tracker.postedFault.set x.domain true } := by
  unfold State.postedFailure
  split
  · rw [State.raise_tracker, State.offer_tracker]
  · rw [State.offer_tracker]

/-- A posted entry that has gone DONE, before it is freed. -/
def State.postedStopped (e : EntryId) (st : Status) (s : State) : State :=
  if st == .ok then s.goDone e st else (s.goDone e st).postedFailure s.tracker.entries[e] st

theorem State.endPosted_eq (e : EntryId) (st : Status) (s : State) :
    s.endPosted e st = if s.tracker.entries[e].response.isSome then s.postedStopped e st else (s.postedStopped e st).freeEntry e := rfl

section
variable (e : EntryId) (st : Status) (s : State)

theorem State.postedStopped_bays : (s.postedStopped e st).bays = s.bays := by
  unfold State.postedStopped
  split
  · rfl
  · rw [State.postedFailure_bays]; rfl

theorem State.postedStopped_lists : (s.postedStopped e st).tracker.entries = (s.goDone e st).tracker.entries
    ∧ (s.postedStopped e st).tracker.taken = s.tracker.taken ∧ (s.postedStopped e st).tracker.order = s.tracker.order
    ∧ (s.postedStopped e st).tracker.nextSeq = s.tracker.nextSeq := by
  unfold State.postedStopped
  split
  · exact ⟨rfl, rfl, rfl, rfl⟩
  · rw [State.postedFailure_tracker]; exact ⟨rfl, rfl, rfl, rfl⟩

theorem State.goDone_same : (s.goDone e st).tracker.entries[e] = { s.tracker.entries[e] with state := .done, status := st } := State.mapEntry_same e _ s

theorem State.goDone_touched : s.tracker.Touched (s.goDone e st).tracker e := s.mapEntry_touched e _

theorem State.endPosted_bays : (s.endPosted e st).bays = s.bays := by
  rw [State.endPosted_eq]
  split
  · exact s.postedStopped_bays e st
  · exact s.postedStopped_bays e st

theorem State.endPosted_touched : s.tracker.Touched (s.endPosted e st).tracker e := by
  obtain ⟨hentries, htaken, -⟩ := s.postedStopped_lists e st
  rw [State.endPosted_eq]
  split
  · exact ⟨fun x hx => by rw [hentries]; exact (s.goDone_touched e st).others x hx, .inl htaken⟩
  · refine ⟨fun x hx => ?_, .inr ?_⟩
    · rw [State.freeEntry_other hx, hentries]; exact (s.goDone_touched e st).others x hx
    · rw [State.freeEntry_taken, htaken]

end

section
variable {e : EntryId} {st : Status} {s : State}

/-- A posted entry whose response is still ready stays, DONE (R49). -/
theorem State.endPosted_of_response (h : s.tracker.entries[e].response.isSome = true) :
    (s.endPosted e st).tracker.entries[e] = { s.tracker.entries[e] with state := .done, status := st }
      ∧ (s.endPosted e st).tracker.taken = s.tracker.taken ∧ (s.endPosted e st).tracker.order = s.tracker.order := by
  obtain ⟨hentries, htaken, horder, -⟩ := s.postedStopped_lists e st
  rw [State.endPosted_eq, if_pos h, hentries]
  exact ⟨s.goDone_same e st, htaken, horder⟩

/-- One whose response has been taken is freed (R49). -/
theorem State.endPosted_of_no_response (h : s.tracker.entries[e].response = none) :
    (s.endPosted e st).tracker.entries[e] = Entry.blank ∧ (s.endPosted e st).tracker.taken = s.tracker.taken.filter (· != e)
      ∧ (s.endPosted e st).tracker.order = s.tracker.order.filter (· != e) := by
  obtain ⟨-, htaken, horder, -⟩ := s.postedStopped_lists e st
  rw [State.endPosted_eq, if_neg (by rw [h]; decide), State.freeEntry_taken, State.freeEntry_order, htaken, horder]
  exact ⟨State.freeEntry_same e _, rfl, rfl⟩

end

/-! ### The end of an entry's work (R58) -/

section
variable {e : EntryId} {st : Status} {s : State}

theorem State.stopEntry_posted (h : s.tracker.entries[e].posted = true) : s.stopEntry e st = s.endPosted e st := if_pos h

theorem State.stopEntry_discard (hp : s.tracker.entries[e].posted = false) (hd : s.tracker.entries[e].discard = true) : s.stopEntry e st = s.freeEntry e := by
  rw [State.stopEntry, if_neg (by rw [hp]; decide), if_pos hd]

theorem State.stopEntry_done (hp : s.tracker.entries[e].posted = false) (hd : s.tracker.entries[e].discard = false) : s.stopEntry e st = s.goDone e st := by
  rw [State.stopEntry, if_neg (by rw [hp]; decide), if_neg (by rw [hd]; decide)]

end

theorem State.stopEntry_cases {P : State → Prop} {e : EntryId} {st : Status} {s : State} (hposted : s.tracker.entries[e].posted = true → P (s.endPosted e st))
    (hdiscard : s.tracker.entries[e].posted = false → s.tracker.entries[e].discard = true → P (s.freeEntry e))
    (hdone : s.tracker.entries[e].posted = false → s.tracker.entries[e].discard = false → P (s.goDone e st)) : P (s.stopEntry e st) := by
  cases hp : s.tracker.entries[e].posted with
  | true => rw [State.stopEntry_posted hp]; exact hposted hp
  | false =>
    cases hd : s.tracker.entries[e].discard with
    | true => rw [State.stopEntry_discard hp hd]; exact hdiscard hp hd
    | false => rw [State.stopEntry_done hp hd]; exact hdone hp hd

theorem State.stopEntry_bays (e : EntryId) (st : Status) (s : State) : (s.stopEntry e st).bays = s.bays :=
  State.stopEntry_cases (P := fun v => v.bays = s.bays) (fun _ => s.endPosted_bays e st) (fun _ _ => rfl) fun _ _ => rfl

theorem State.stopEntry_touched (e : EntryId) (st : Status) (s : State) : s.tracker.Touched (s.stopEntry e st).tracker e :=
  State.stopEntry_cases (P := fun v => s.tracker.Touched v.tracker e) (fun _ => s.endPosted_touched e st) (fun _ _ => s.freeEntry_touched e)
    fun _ _ => s.goDone_touched e st

/-! ### Arrivals in a bay queue -/

/-- Between `b` and `v` the queue stays, a unit under way is one of the entry whose unit was under way, and no timeout is counted. -/
structure Bay.Carries (b v : Bay) : Prop where
  queue : v.queue = b.queue
  unit : ∀ u, v.unit = some u → ∃ w, b.unit = some w ∧ w.entry = u.entry
  timeouts : v.timeouts ≤ b.timeouts

namespace Bay.Carries

theorem of_eq {b v : Bay} (hq : v.queue = b.queue) (hu : v.unit = b.unit) (ht : v.timeouts ≤ b.timeouts) : b.Carries v := ⟨hq, fun u h => ⟨u, hu ▸ h, rfl⟩, ht⟩

theorem refl (b : Bay) : b.Carries b := of_eq rfl rfl (Nat.le_refl _)

theorem trans {b v w : Bay} (h : b.Carries v) (h' : v.Carries w) : b.Carries w where
  queue := h'.queue.trans h.queue
  unit u hu := by
    obtain ⟨x, hx, hxe⟩ := h'.unit u hu
    obtain ⟨y, hy, hye⟩ := h.unit x hx
    exact ⟨y, hy, hye.trans hxe⟩
  timeouts := Nat.le_trans h'.timeouts h.timeouts

theorem callArbiter (b : Bay) : b.Carries b.callArbiter := of_eq rfl rfl (Nat.le_refl _)

theorem enter (b : Bay) (st : BayState) : b.Carries (b.enter st) := of_eq rfl rfl (Nat.le_refl _)

theorem wakeEnds (b : Bay) : b.Carries b.wakeEnds := by
  unfold Bay.wakeEnds
  dsimp only
  split
  · exact of_eq rfl rfl (Nat.zero_le _)
  · exact of_eq rfl rfl (Nat.zero_le _)

theorem startWake (b : Bay) : b.Carries b.startWake := by
  rw [Bay.startWake_eq]
  split
  · exact (enter b .waking).trans (wakeEnds _)
  · exact of_eq rfl rfl (Nat.le_refl _)

theorem wakeCheck (b : Bay) : b.Carries b.wakeCheck := by
  unfold Bay.wakeCheck
  split
  · exact startWake b
  · exact refl b

theorem parkSettle (b : Bay) : b.Carries b.parkSettle := by
  unfold Bay.parkSettle
  split
  · exact (enter b .parked).trans (wakeCheck _)
  · exact refl b

theorem settle (b : Bay) : b.Carries b.settle := by
  refine (parkSettle b).trans ?_
  show b.parkSettle.Carries b.parkSettle.drainSettle
  unfold Bay.drainSettle
  split
  · split
    · exact enter _ _
    · unfold Bay.drainRelease
      split
      · exact refl _
      · exact of_eq rfl rfl (Nat.le_refl _)
  · exact refl _

end Bay.Carries

/-- An entry that joins a queue joins its tail, and no unit changes. -/
theorem Bay.enqueue_carries (e : EntryId) (b : Bay) : ({ b with queue := b.queue ++ [e] } : Bay).Carries (b.enqueue e) := by
  rw [Bay.enqueue_eq]
  split
  · exact (Bay.Carries.callArbiter _).trans (Bay.Carries.wakeCheck _)
  · exact Bay.Carries.wakeCheck _

theorem Bay.enqueue_queue (e : EntryId) (b : Bay) : (b.enqueue e).queue = b.queue ++ [e] := (b.enqueue_carries e).queue

/-! ### What the operations keep -/

namespace State.Filed

variable {s u : State} {X Y : EntryId → Prop} {e : EntryId} {b : BayId}

/-- A bay whose queue stays, and whose unit is one of a RUNNING entry of it. -/
theorem mapBay (h : s.Filed X) (f : Bay → Bay) (hq : (f s.bays[b]).queue = s.bays[b].queue)
    (hu : ∀ r, (f s.bays[b]).unit = some r → r.entry ∈ s.bays[b].queue ∧ s.tracker.entries[r.entry].state = .running) : (s.mapBay b f).Filed X := by
  have hqueue (c : BayId) : (s.mapBay b f).bays[c].queue = s.bays[c].queue := by
    rw [State.mapBay_get]
    split
    · next hc => subst hc; exact hq
    · rfl
  refine ⟨h.taken, fun c => by rw [hqueue]; exact h.queues c, fun x => ?_, fun c r hr => ?_⟩
  · have hmem : (fun c : BayId => x ∈ (s.mapBay b f).bays[c].queue) = fun c : BayId => x ∈ s.bays[c].queue := funext fun c => by rw [hqueue]
    rw [hmem]
    exact h.entry x
  · rw [hqueue]
    rw [State.mapBay_get] at hr
    split at hr
    · next hc => subst hc; exact hu r hr
    · exact h.unit c r hr

theorem mapBay_carries (h : s.Filed X) {f : Bay → Bay} (hf : s.bays[b].Carries (f s.bays[b])) : (s.mapBay b f).Filed X :=
  h.mapBay f hf.queue fun r hr => by
    obtain ⟨w, hw, hwe⟩ := hf.unit r hr
    simp only [← hwe]
    exact h.unit b w hw

/-- A bay whose bus is cleared: the entries of its queue are out of it. -/
theorem clear (h : s.Filed X) (f : Bay → Bay) (hq : (f s.bays[b]).queue = []) (hu : (f s.bays[b]).unit = none) :
    (s.mapBay b f).Filed fun x => X x ∨ x ∈ s.bays[b].queue := by
  have hempty : (s.mapBay b f).bays[b].queue = [] := by rw [State.mapBay_same]; exact hq
  have hnot {x : EntryId} (hs : s.tracker.entries[x].state = .held) : x ∉ s.bays[b].queue := (h.entry x).not_queued (by rw [hs]; rfl) b
  refine ⟨h.taken, fun c => ?_, fun x => ?_, fun c r hr => ?_⟩
  · by_cases hc : c = b
    · subst hc; rw [hempty]; exact List.nodup_nil
    · rw [State.mapBay_other hc]; exact h.queues c
  · refine { inUse := fun hl ho => (h.entry x).inUse hl fun hX => ho (.inl hX)
             held := fun hl hs => ((h.entry x).held hl hs).imp_right fun hn hX => hX.elim hn (hnot hs), waiting := (h.entry x).waiting
             response := (h.entry x).response, done := (h.entry x).done
             placed := (h.entry x).placed, queue := fun c => ?_ }
    by_cases hc : c = b
    · subst hc
      rw [hempty]
      refine iff_of_false (List.not_mem_nil) fun ⟨hl, ha, ho, hx⟩ => ?_
      exact ho (.inr (((h.entry x).queue c).2 ⟨hl, ha, fun hX => ho (.inl hX), hx⟩))
    · rw [State.mapBay_other hc]
      refine ((h.entry x).queue c).trans (and_congr_right fun hl => and_congr_right fun ha => ?_)
      refine ⟨fun ⟨ho, t, ht, hbay⟩ => ⟨fun hX => hX.elim ho fun hb => ?_, t, ht, hbay⟩, fun ⟨ho, hx⟩ => ⟨fun hX => ho (.inl hX), hx⟩⟩
      exact hc (h.bay_unique (((h.entry x).queue c).2 ⟨hl, ha, ho, t, ht, hbay⟩) hb)
  · rw [State.mapBay_get] at hr ⊢
    split at hr
    · rw [hu] at hr; cases hr
    · next hc => rw [if_neg hc]; exact h.unit c r hr

/-- An entry leaves its queue; it is then out of it. -/
theorem dequeue (h : s.Filed X) (he : e ∈ s.bays[b].queue) (hu : ∀ r, s.bays[b].unit = some r → r.entry ≠ e) : (s.dequeue b e).Filed fun x => X x ∨ x = e := by
  have hqueue (c : BayId) (x : EntryId) : x ∈ (s.dequeue b e).bays[c].queue ↔ x ∈ s.bays[c].queue ∧ x ≠ e := by
    rw [State.dequeue, State.mapBay_get]
    split
    · next hc => subst hc; exact mem_filter_ne
    · next hc => exact ⟨fun hx => ⟨hx, fun hxe => hc (h.bay_unique (hxe ▸ hx) he)⟩, And.left⟩
  have hnot {x : EntryId} (hs : s.tracker.entries[x].state = .held) : x ≠ e := fun hx => (h.entry x).not_queued (by rw [hs]; rfl) b (hx ▸ he)
  refine ⟨h.taken, fun c => ?_, fun x => ?_, fun c r hr => ?_⟩
  · rw [State.dequeue, State.mapBay_get]
    split
    · exact (h.queues b).filter _
    · exact h.queues c
  · refine { inUse := fun hl ho => (h.entry x).inUse hl fun hX => ho (.inl hX)
             held := fun hl hs => ((h.entry x).held hl hs).imp_right fun hn hX => hX.elim hn (hnot hs), waiting := (h.entry x).waiting
             response := (h.entry x).response, done := (h.entry x).done
             placed := (h.entry x).placed, queue := fun c => ?_ }
    rw [hqueue c x, (h.entry x).queue c]
    exact ⟨fun ⟨⟨hl, ha, ho, hx⟩, hxe⟩ => ⟨hl, ha, fun hX => hX.elim ho hxe, hx⟩, fun ⟨hl, ha, ho, hx⟩ => ⟨⟨hl, ha, fun hX => ho (.inl hX), hx⟩, fun hxe => ho (.inr hxe)⟩⟩
  · have hunit : s.bays[c].unit = some r := by
      rw [State.dequeue, State.mapBay_get] at hr
      split at hr
      · next hc => subst hc; exact hr
      · exact hr
    obtain ⟨hmem, hrun⟩ := h.unit c r hunit
    refine ⟨(hqueue c r.entry).2 ⟨hmem, fun hre => ?_⟩, hrun⟩
    obtain rfl := h.bay_unique (hre ▸ hmem) he
    exact hu r hunit hre

/-- An entry at its bay that is out of the queue joins it. -/
theorem enqueue (h : s.Filed X) (he : e ∈ s.tracker.taken) (hs : s.tracker.entries[e].state.atBay = true) {x : Translation} (hx : s.tracker.entries[e].xlat = some x) (hX : X e) :
    (s.mapBay x.bay (Bay.enqueue e)).Filed fun y => X y ∧ y ≠ e := by
  have hnot (c : BayId) : e ∉ s.bays[c].queue := fun hc => h.not_out hc hX
  have hqueue (c : BayId) (y : EntryId) : y ∈ (s.mapBay x.bay (Bay.enqueue e)).bays[c].queue ↔ y ∈ s.bays[c].queue ∨ y = e ∧ c = x.bay := by
    rw [State.mapBay_get]
    split
    · next hc => subst hc; rw [Bay.enqueue_queue, List.mem_append, List.mem_singleton, and_iff_left rfl]
    · next hc => rw [or_iff_left fun hy => hc hy.2]
  refine ⟨h.taken, fun c => ?_, fun y => ?_, fun c r hr => ?_⟩
  · rw [State.mapBay_get]
    split
    · rw [Bay.enqueue_queue]
      exact nodup_concat (h.queues x.bay) (hnot x.bay)
    · exact h.queues c
  · by_cases hy : y = e
    · subst hy
      refine { inUse := fun _ _ hf => by rw [show s.tracker.entries[y].state = .free from hf] at hs; cases hs
               held := fun hl hh => absurd hX ((h.entry y).held hl hh).2, waiting := (h.entry y).waiting, response := (h.entry y).response
               done := (h.entry y).done, placed := (h.entry y).placed, queue := fun c => ?_ }
      rw [hqueue c y, or_iff_right (hnot c)]
      refine ⟨fun ⟨_, hc⟩ => ⟨he, hs, fun hn => hn.2 rfl, x, hx, hc.symm⟩, fun ⟨_, _, _, t, ht, hc⟩ => ⟨rfl, ?_⟩⟩
      rw [← hc, Option.some.inj (hx.symm.trans ht)]
    · have hmem : (fun c : BayId => y ∈ (s.mapBay x.bay (Bay.enqueue e)).bays[c].queue) = fun c : BayId => y ∈ s.bays[c].queue :=
        funext fun c => propext ((hqueue c y).trans (or_iff_left fun hye => hy hye.1))
      have hout : (X y ∧ y ≠ e) = X y := propext (and_iff_left hy)
      rw [hmem, hout]
      exact h.entry y
  · have hold : ∃ w, s.bays[c].unit = some w ∧ w.entry = r.entry := by
      rw [State.mapBay_get] at hr
      split at hr
      · next hc => subst hc; exact (Bay.enqueue_carries e s.bays[x.bay]).unit r hr
      · exact ⟨r, hr, rfl⟩
    obtain ⟨w, hw, hwe⟩ := hold
    obtain ⟨hmem, hrun⟩ := h.unit c w hw
    rw [hwe] at hmem
    exact ⟨(hqueue c r.entry).2 (.inl hmem), by simp only [← hwe]; exact hrun⟩

/-- A HELD entry joins the queue of its bay (R42, R54). -/
theorem place (h : s.Filed X) (he : e ∈ s.tracker.taken) (hs : s.tracker.entries[e].state = .held) {x : Translation} (hx : s.tracker.entries[e].xlat = some x) :
    (s.place e x.bay).Filed X := by
  obtain ⟨hxlat, hX⟩ := (h.entry e).held he hs
  have hentry : (s.mapEntry e fun z => { z with state := .queued }).tracker.entries[e] = { s.tracker.entries[e] with state := .queued } :=
    State.mapEntry_same e (fun z => { z with state := .queued }) s
  have hqueued : (s.mapEntry e fun z => { z with state := .queued }).Filed fun y => X y ∨ y = e := by
    refine h.touch_out (fun y hy => (or_iff_left hy).symm) rfl (s.mapEntry_touched e _) ?_ fun b r hr hre => absurd hre (h.unit_ne (by rw [hs]; decide) b r hr)
    rw [hentry]
    refine ⟨fun _ ho => absurd (.inr rfl) ho, nofun, nofun, fun hl hr => ((h.entry e).response hl hr).imp_right fun hd => absurd (hs.symm.trans hd) (by decide), nofun,
      fun _ _ => hxlat, fun c => iff_of_false ((h.entry e).not_queued (by rw [hs]; rfl) c) fun hc => hc.2.2.1 (.inr rfl)⟩
  refine (hqueued.enqueue he (by rw [hentry]; rfl) (x := x) (by rw [hentry]; exact hx) (.inr rfl)).out_congr fun y _ _ => ?_
  exact ⟨fun hy => hy.1.resolve_right hy.2, fun hy => ⟨.inl hy, fun hye => hX (hye ▸ hy)⟩⟩

theorem endPosted (h : s.Filed X) (st : Status) (hq : ∀ b : BayId, e ∉ s.bays[b].queue) : (s.endPosted e st).Filed X := by
  refine h.touch (s.endPosted_bays e st) (s.endPosted_touched e st) ?_ fun b r hr hre => absurd (hre ▸ (h.unit b r hr).1) (hq b)
  cases hr : s.tracker.entries[e].response with
  | some r =>
    rw [(State.endPosted_of_response (by rw [hr]; rfl)).1]
    exact Entry.Filed.of_done rfl (.inl (by rw [hr]; rfl)) hq
  | none =>
    obtain ⟨-, htaken, -⟩ := State.endPosted_of_no_response (st := st) hr
    refine Entry.Filed.of_unlisted (fun hm => ?_) hq
    rw [htaken] at hm
    exact (mem_filter_ne.1 hm).2 rfl

/-- The end of the work of an entry that is out of its queue. -/
theorem stopEntry (h : s.Filed X) (st : Status) (hq : ∀ b : BayId, e ∉ s.bays[b].queue) : (s.stopEntry e st).Filed X :=
  State.stopEntry_cases (P := fun v : State => v.Filed X) (fun _ => h.endPosted st hq) (fun _ _ => h.freeEntry hq)
    fun hp _ => h.mapEntry_done _ hq rfl (.inr hp)

end State.Filed

end Sys2Proof.Machine

/-! The rules of order between the entries of the tracker (R51, R53, R56) and its response order (R60): what an operation on one entry must leave so that they hold. -/

namespace Sys2Proof.Machine

/-! ### The views of the order taken -/

section
variable {t : Tracker} {e : EntryId}

theorem Tracker.earlierPosted_iff : t.earlierPosted e = true ↔ ∃ x ∈ t.before e, t.entries[x].domain = t.entries[e].domain ∧ t.entries[x].postedOpen = true := by
  simp only [Tracker.earlierPosted, List.any_eq_true, Bool.and_eq_true, beq_iff_eq]

theorem Tracker.earlierHeld_iff {b : BayId} : t.earlierHeld e b = true ↔ ∃ x ∈ t.before e, t.entries[x].heldFor t.entries[e].domain b = true := by
  simp only [Tracker.earlierHeld, List.any_eq_true]

theorem Tracker.strictHold_iff {x : Translation} : t.strictHold e x = true ↔ t.entries[e].posted = false ∧ x.ordering = .strict ∧ t.earlierPosted e = true := by
  rw [Tracker.strictHold, Bool.and_eq_true, Bool.and_eq_true, Bool.not_eq_true', beq_iff_eq, and_assoc]

end

theorem Entry.heldFor_iff {x : Entry} {d : DomainId} {b : BayId} : x.heldFor d b = true ↔ x.state = .held ∧ x.domain = d ∧ ∃ y, x.xlat = some y ∧ y.bay = b := by
  rw [Entry.heldFor, Bool.and_eq_true, Bool.and_eq_true, beq_iff_eq, beq_iff_eq, and_assoc]
  refine and_congr_right fun _ => and_congr_right fun _ => ?_
  cases x.xlat with
  | none => simp
  | some y => simp

theorem Entry.postedOpen_iff {x : Entry} : x.postedOpen = true ↔ x.posted = true ∧ (x.state = .held ∨ x.state.atBay = true) := by
  rw [Entry.postedOpen, Bool.and_eq_true]
  refine and_congr_right fun _ => ?_
  cases x.state <;> decide

theorem Entry.postedOpen_of_not_posted {x : Entry} (h : x.posted = false) : x.postedOpen = false := by rw [Entry.postedOpen, h, Bool.false_and]

theorem Entry.postedOpen_of_done {x : Entry} (h : x.state = .done) : x.postedOpen = false :=
  Bool.eq_false_iff.2 fun hp => by
    obtain ⟨-, hs⟩ := Entry.postedOpen_iff.1 hp
    rw [h] at hs
    exact absurd hs (by decide)

/-! ### The rules of order -/

/-- The rules of order of the tracker, as far as `σ` and `ε` ask for them: the hold lists of the domains `hs` and the SYNCs of the domains `ss` are still to be examined. -/
structure Tracker.Obeys (t : Tracker) (σ ε : Prop) (hs ss : DomainId → Prop) : Prop where
  strict : σ → t.StrictOrder
  holds : ε → ∀ d, ¬ hs d → t.HoldsStopped d
  syncs : ε → ∀ d, ¬ ss d → t.SyncsWait d

/-- The two records count alike for the rules of order. -/
structure Entry.Alike (x y : Entry) : Prop where
  domain : y.domain = x.domain
  posted : y.posted = x.posted
  xlat : y.xlat = x.xlat
  state : y.state = x.state ∨ y.state.atBay = true ∧ x.state.atBay = true

namespace Entry.Alike

variable {x y : Entry}

theorem refl (x : Entry) : x.Alike x := ⟨rfl, rfl, rfl, .inl rfl⟩

theorem symm (h : x.Alike y) : y.Alike x := ⟨h.domain.symm, h.posted.symm, h.xlat.symm, h.state.imp Eq.symm And.symm⟩

theorem atBay_eq (h : x.Alike y) : y.state.atBay = x.state.atBay := by
  rcases h.state with hs | ⟨hy, hx⟩
  · rw [hs]
  · rw [hy, hx]

/-- A state that is not at the bay is the same in both. -/
theorem state_iff (h : x.Alike y) {st : EntryState} (hst : st.atBay = false) : y.state = st ↔ x.state = st := by
  rcases h.state with hs | ⟨hy, hx⟩
  · rw [hs]
  · exact iff_of_false (fun hh => by rw [hh, hst] at hy; cases hy) fun hh => by rw [hh, hst] at hx; cases hx

theorem postedOpen_eq (h : x.Alike y) : y.postedOpen = x.postedOpen := by
  rw [Bool.eq_iff_iff, Entry.postedOpen_iff, Entry.postedOpen_iff, h.posted, h.state_iff rfl, h.atBay_eq]

theorem heldFor_eq (h : x.Alike y) (d : DomainId) (b : BayId) : y.heldFor d b = x.heldFor d b := by
  rw [Bool.eq_iff_iff, Entry.heldFor_iff, Entry.heldFor_iff, h.domain, h.xlat, h.state_iff rfl]

end Entry.Alike

/-- The order taken is the same, and every record counts alike. -/
structure Tracker.Alike (t u : Tracker) : Prop where
  taken : u.taken = t.taken
  entry : ∀ x : EntryId, t.entries[x].Alike u.entries[x]

namespace Tracker.Alike

variable {t u : Tracker}

theorem of_touched {e : EntryId} (ht : t.Touched u e) (htaken : u.taken = t.taken) (he : t.entries[e].Alike u.entries[e]) : t.Alike u where
  taken := htaken
  entry x := by
    by_cases hx : x = e
    · subst hx; exact he
    · rw [ht.others x hx]; exact .refl _

theorem symm (h : t.Alike u) : u.Alike t := ⟨h.taken.symm, fun x => (h.entry x).symm⟩

theorem before_eq (h : t.Alike u) (e : EntryId) : u.before e = t.before e := by rw [Tracker.before, Tracker.before, h.taken]

theorem earlierPosted_eq (h : t.Alike u) (e : EntryId) : u.earlierPosted e = t.earlierPosted e := by
  simp only [Tracker.earlierPosted, h.before_eq, (h.entry _).domain, (h.entry _).postedOpen_eq]

theorem earlierHeld_eq (h : t.Alike u) (e : EntryId) (b : BayId) : u.earlierHeld e b = t.earlierHeld e b := by
  simp only [Tracker.earlierHeld, h.before_eq, (h.entry _).domain, (h.entry _).heldFor_eq]

theorem strictOrder (h : t.Alike u) (ht : t.StrictOrder) : u.StrictOrder := fun e he hs hp x hx hstrict => by
  rw [h.earlierPosted_eq]
  exact ht e (h.taken ▸ he) ((h.entry e).atBay_eq ▸ hs) ((h.entry e).posted ▸ hp) x ((h.entry e).xlat ▸ hx) hstrict

theorem holdsStopped (h : t.Alike u) {d : DomainId} (ht : t.HoldsStopped d) : u.HoldsStopped d := fun e he hs hd x hx hheld => by
  rw [h.earlierPosted_eq, (h.entry e).posted]
  exact ht e (h.taken ▸ he) (((h.entry e).state_iff rfl).1 hs) ((h.entry e).domain ▸ hd) x ((h.entry e).xlat ▸ hx) (h.earlierHeld_eq e x.bay ▸ hheld)

theorem syncsWait (h : t.Alike u) {d : DomainId} (ht : t.SyncsWait d) : u.SyncsWait d := fun e he hs hd => by
  obtain ⟨x, hx, hxd, hxs⟩ := ht e (h.taken ▸ he) (((h.entry e).state_iff rfl).1 hs) ((h.entry e).domain ▸ hd)
  exact ⟨x, h.before_eq e ▸ hx, (h.entry x).domain.trans hxd, mt ((h.entry x).state_iff rfl).1 hxs⟩

theorem obeys (h : t.Alike u) {σ ε : Prop} {hs ss : DomainId → Prop} (ho : t.Obeys σ ε hs ss) : u.Obeys σ ε hs ss where
  strict hσ := h.strictOrder (ho.strict hσ)
  holds hε d hd := h.holdsStopped (ho.holds hε d hd)
  syncs hε d hd := h.syncsWait (ho.syncs hε d hd)

end Tracker.Alike

namespace Tracker.Obeys

variable {t u : Tracker} {e : EntryId} {σ ε : Prop} {hs ss hs' ss' : DomainId → Prop}

theorem mono (h : t.Obeys σ ε hs ss) (hh : ∀ d, hs d → hs' d) (hd : ∀ d, ss d → ss' d) : t.Obeys σ ε hs' ss' where
  strict := h.strict
  holds hε d hn := h.holds hε d (mt (hh d) hn)
  syncs hε d hn := h.syncs hε d (mt (hd d) hn)

/-- The work of `e` ends, or `e` goes from its hold list to its bay: the lists of its domain are to be examined where it counted there. -/
theorem moved (h : t.Obeys σ ε hs ss) (ht : t.Touched u e)
    (hopen : e ∈ u.taken → u.entries[e].postedOpen = true → t.entries[e].postedOpen = true ∧ u.entries[e].domain = t.entries[e].domain)
    (hheld : e ∈ u.taken → u.entries[e].state ≠ .held) (hwait : e ∈ u.taken → u.entries[e].state ≠ .waiting)
    (hstrict : e ∈ u.taken → u.entries[e].state.atBay = true → u.entries[e].posted = false → ∀ x, u.entries[e].xlat = some x → x.ordering = .strict → u.earlierPosted e = false)
    (hh : hs t.entries[e].domain ∨ t.entries[e].postedOpen = false ∧ t.entries[e].state ≠ .held)
    (hd : ss t.entries[e].domain ∨ u.taken = t.taken ∧ u.entries[e].domain = t.entries[e].domain ∧ u.entries[e].state ≠ .done) : u.Obeys σ ε hs ss where
  strict hσ x hx hs hp y hy hy' := by
    by_cases hxe : x = e
    · subst hxe; exact hstrict hx hs hp y hy hy'
    · rw [ht.others x hxe] at hs hp hy
      rw [Bool.eq_false_iff, Ne, Tracker.earlierPosted_iff, ht.others x hxe]
      rintro ⟨z, hz, hzd, hzo⟩
      have hzt : z ∈ t.before x := ht.mem_before_of_mem hx hz
      have hprev : t.entries[z].domain = t.entries[x].domain ∧ t.entries[z].postedOpen = true := by
        by_cases hze : z = e
        · subst hze
          obtain ⟨ho, hdom⟩ := hopen (Tracker.mem_taken_of_mem_before hz) hzo
          exact ⟨hdom ▸ hzd, ho⟩
        · rw [ht.others z hze] at hzd hzo; exact ⟨hzd, hzo⟩
      exact Bool.eq_false_iff.1 (h.strict hσ x (ht.mem_of_mem hx) hs hp y hy hy') (Tracker.earlierPosted_iff.2 ⟨z, hzt, hprev⟩)
  holds hε d hd' x hx hs hdom y hy hfirst := by
    have hxe : x ≠ e := fun hxe => by subst hxe; exact hheld hx hs
    rw [ht.others x hxe] at hs hdom hy ⊢
    have hcounts {z : EntryId} (hz : t.entries[z].domain = d) (hcount : t.entries[z].postedOpen = true ∨ t.entries[z].state = .held) : z ≠ e := fun hze => by
      subst hze
      rcases hh with hh | ⟨ho, hn⟩
      · exact hd' (hz ▸ hh)
      · exact hcount.elim (fun hc => absurd (ho.symm.trans hc) (by decide)) hn
    have hfirst' : t.earlierHeld x y.bay = false := by
      rw [Bool.eq_false_iff, Ne, Tracker.earlierHeld_iff, ht.others x hxe] at hfirst
      rw [Bool.eq_false_iff, Ne, Tracker.earlierHeld_iff]
      rintro ⟨z, hz, hzh⟩
      obtain ⟨hzs, hzd, -⟩ := Entry.heldFor_iff.1 hzh
      have hze := hcounts (hzd.trans hdom) (.inr hzs)
      exact hfirst ⟨z, (ht.mem_before_iff hx hze).2 hz, by rw [ht.others z hze]; exact hzh⟩
    obtain ⟨hp, hord, hearlier⟩ := h.holds hε d hd' x (ht.mem_of_mem hx) hs hdom y hy hfirst'
    obtain ⟨z, hz, hzd, hzo⟩ := Tracker.earlierPosted_iff.1 hearlier
    have hze := hcounts (hzd.trans hdom) (.inl hzo)
    refine ⟨hp, hord, Tracker.earlierPosted_iff.2 ⟨z, (ht.mem_before_iff hx hze).2 hz, ?_⟩⟩
    rw [ht.others z hze, ht.others x hxe]
    exact ⟨hzd, hzo⟩
  syncs hε d hd' x hx hs hdom := by
    have hxe : x ≠ e := fun hxe => by subst hxe; exact hwait hx hs
    rw [ht.others x hxe] at hs hdom
    obtain ⟨z, hz, hzd, hzs⟩ := h.syncs hε d hd' x (ht.mem_of_mem hx) hs hdom
    by_cases hze : z = e
    · subst hze
      obtain ⟨htaken, hdome, hse⟩ := hd.resolve_left fun hse => hd' (hzd ▸ hse)
      exact ⟨z, by rw [Tracker.before, htaken]; exact hz, hdome.trans hzd, hse⟩
    · exact ⟨z, (ht.mem_before_iff hx hze).2 hz, by rw [ht.others z hze]; exact hzd, by rw [ht.others z hze]; exact hzs⟩

/-- The work of `e` ends. -/
theorem ended (h : t.Obeys σ ε hs ss) (ht : t.Touched u e) (hdone : e ∈ u.taken → u.entries[e].state = .done)
    (hh : hs t.entries[e].domain ∨ t.entries[e].postedOpen = false ∧ t.entries[e].state ≠ .held) (hd : ss t.entries[e].domain) : u.Obeys σ ε hs ss :=
  h.moved ht (fun he ho => absurd ((Entry.postedOpen_of_done (hdone he)).symm.trans ho) (by decide)) (fun he hs => by rw [hdone he] at hs; cases hs)
    (fun he hs => by rw [hdone he] at hs; cases hs) (fun he hs => by rw [hdone he] at hs; cases hs) hh (.inl hd)

/-- A HELD entry that no rule stops goes to its bay. -/
theorem placed (h : t.Obeys σ ε hs ss) (ht : t.Touched u e) (htaken : u.taken = t.taken) (he : u.entries[e] = { t.entries[e] with state := .queued })
    (hheld : t.entries[e].state = .held) {x : Translation} (hx : t.entries[e].xlat = some x) (hfree : t.strictHold e x = false) (hh : hs t.entries[e].domain) :
    u.Obeys σ ε hs ss := by
  have hposted : u.earlierPosted e = t.earlierPosted e := by
    rw [Bool.eq_iff_iff, Tracker.earlierPosted_iff, Tracker.earlierPosted_iff, Tracker.before, htaken, he]
    refine exists_congr fun y => and_congr_right fun hy => ?_
    rw [ht.others y (Tracker.ne_of_mem_before hy)]
  refine h.moved ht (fun _ ho => ?_) (fun _ hs => ?_) (fun _ hs => ?_) (fun _ _ hp y hy hstrict => ?_) (.inl hh) (.inr ⟨htaken, by rw [he], by rw [he]; nofun⟩)
  · rw [he] at ho ⊢
    exact ⟨Entry.postedOpen_iff.2 ⟨(Entry.postedOpen_iff.1 ho).1, .inl hheld⟩, rfl⟩
  · rw [he] at hs; cases hs
  · rw [he] at hs; cases hs
  · rw [he] at hp hy
    obtain rfl := Option.some.inj (hx.symm.trans hy)
    rw [hposted, Bool.eq_false_iff]
    exact fun hep => Bool.eq_false_iff.1 hfree (Tracker.strictHold_iff.2 ⟨hp, hstrict, hep⟩)

end Tracker.Obeys

/-! ### A new entry -/

theorem takeWhile_append_of_mem {l : List EntryId} {x : EntryId} (hx : x ∈ l) (l' : List EntryId) : (l ++ l').takeWhile (· != x) = l.takeWhile (· != x) := by
  induction l with
  | nil => cases hx
  | cons y l ih =>
    rw [List.cons_append]
    by_cases hy : y = x
    · subst hy
      rw [List.takeWhile_cons_of_neg (by simp), List.takeWhile_cons_of_neg (by simp)]
    · have hne : (y != x) = true := bne_iff_ne.2 hy
      rw [List.takeWhile_cons_of_pos (p := (· != x)) hne, List.takeWhile_cons_of_pos (p := (· != x)) hne, ih ((List.mem_cons.1 hx).resolve_left (Ne.symm hy))]

/-- From `t` to `u` the entry `e` is taken, behind all the others, which stay. -/
structure Tracker.Takes (t u : Tracker) (e : EntryId) : Prop where
  new : e ∉ t.taken
  taken : u.taken = t.taken ++ [e]
  others : ∀ x, x ≠ e → u.entries[x] = t.entries[x]

namespace Tracker.Takes

variable {t u : Tracker} {e : EntryId}

theorem ne_of_mem (h : t.Takes u e) {x : EntryId} (hx : x ∈ t.taken) : x ≠ e := fun hxe => h.new (hxe ▸ hx)

theorem entry_of_mem (h : t.Takes u e) {x : EntryId} (hx : x ∈ t.taken) : u.entries[x] = t.entries[x] := h.others x (h.ne_of_mem hx)

theorem mem_iff (h : t.Takes u e) {x : EntryId} : x ∈ u.taken ↔ x ∈ t.taken ∨ x = e := by rw [h.taken, List.mem_append, List.mem_singleton]

theorem before_self (h : t.Takes u e) : u.before e = t.taken := by
  rw [Tracker.before, h.taken, takeWhile_append_self h.new]

theorem before_of_mem (h : t.Takes u e) {x : EntryId} (hx : x ∈ t.taken) : u.before x = t.before x := by
  rw [Tracker.before, h.taken, takeWhile_append_of_mem hx, Tracker.before]

theorem earlierPosted_of_mem (h : t.Takes u e) {x : EntryId} (hx : x ∈ t.taken) : u.earlierPosted x = t.earlierPosted x := by
  rw [Bool.eq_iff_iff, Tracker.earlierPosted_iff, Tracker.earlierPosted_iff, h.before_of_mem hx, h.entry_of_mem hx]
  exact exists_congr fun y => and_congr_right fun hy => by rw [h.entry_of_mem (Tracker.mem_taken_of_mem_before hy)]

theorem earlierHeld_of_mem (h : t.Takes u e) {x : EntryId} (hx : x ∈ t.taken) (b : BayId) : u.earlierHeld x b = t.earlierHeld x b := by
  rw [Bool.eq_iff_iff, Tracker.earlierHeld_iff, Tracker.earlierHeld_iff, h.before_of_mem hx, h.entry_of_mem hx]
  exact exists_congr fun y => and_congr_right fun hy => by rw [h.entry_of_mem (Tracker.mem_taken_of_mem_before hy)]

/-- The rules of order ask something of the new entry alone. -/
theorem obeys (h : t.Takes u e) {σ ε : Prop} {hs ss : DomainId → Prop} (ho : t.Obeys σ ε hs ss)
    (hstrict : u.entries[e].state.atBay = true → ∀ x, u.entries[e].xlat = some x → u.strictHold e x = false)
    (hheld : u.entries[e].state = .held → ∀ x, u.entries[e].xlat = some x → u.earlierHeld e x.bay = false → u.strictHold e x = true)
    (hwait : u.entries[e].state = .waiting → ss u.entries[e].domain) : u.Obeys σ ε hs ss where
  strict hσ x hx hs hp y hy hy' := by
    rcases h.mem_iff.1 hx with hx | rfl
    · rw [h.entry_of_mem hx] at hs hp hy
      rw [h.earlierPosted_of_mem hx]
      exact ho.strict hσ x hx hs hp y hy hy'
    · rw [Bool.eq_false_iff]
      exact fun hep => Bool.eq_false_iff.1 (hstrict hs y hy) (Tracker.strictHold_iff.2 ⟨hp, hy', hep⟩)
  holds hε d hd x hx hs hdom y hy hfirst := by
    rcases h.mem_iff.1 hx with hx | rfl
    · rw [h.entry_of_mem hx] at hs hdom hy ⊢
      rw [h.earlierPosted_of_mem hx]
      exact ho.holds hε d hd x hx hs hdom y hy (h.earlierHeld_of_mem hx y.bay ▸ hfirst)
    · exact Tracker.strictHold_iff.1 (hheld hs y hy hfirst)
  syncs hε d hd x hx hs hdom := by
    rcases h.mem_iff.1 hx with hx | rfl
    · rw [h.entry_of_mem hx] at hs hdom
      obtain ⟨z, hz, hzd, hzs⟩ := ho.syncs hε d hd x hx hs hdom
      rw [h.before_of_mem hx]
      refine ⟨z, hz, ?_⟩
      rw [h.entry_of_mem (Tracker.mem_taken_of_mem_before hz)]
      exact ⟨hzd, hzs⟩
    · exact absurd (hdom ▸ hwait hs) hd

end Tracker.Takes

/-! ### One pass over the order taken -/

/-- What `C` says of an entry is told by its own record and by the entries taken before it. -/
def Tracker.LocalTo (C : Tracker → EntryId → Prop) : Prop :=
  ∀ (t u : Tracker) (x : EntryId), u.entries[x] = t.entries[x] → (∀ z, z ∈ u.before x ↔ z ∈ t.before x) → (∀ z ∈ t.before x, u.entries[z] = t.entries[z]) → C t x → C u x

theorem Tracker.Touched.local {t u : Tracker} {e x : EntryId} (h : t.Touched u e) {C : Tracker → EntryId → Prop} (hC : Tracker.LocalTo C) (hx : x ∈ u.taken) (hxe : x ≠ e)
    (he : e ∉ t.before x) (hc : C t x) : C u x := by
  refine hC t u x (h.others x hxe) (fun z => ?_) (fun z hz => h.others z fun hze => he (hze ▸ hz)) hc
  by_cases hz : z = e
  · subst hz
    exact iff_of_false (fun hm => he (h.mem_before_of_mem hx hm)) he
  · exact h.mem_before_iff hx hz

/-- One pass over the order taken, by steps that each reach one entry: what every step leaves true of its own entry, and is local to it, holds of all of them at the end. -/
theorem State.foldl_pass {K : State → Prop} {C : Tracker → EntryId → Prop} {step : State → EntryId → State} {s : State} (hn : s.tracker.taken.Nodup) (hs : K s)
    (hC : Tracker.LocalTo C) (htouch : ∀ (v : State) (e : EntryId), v.tracker.Touched (step v e).tracker e) (hkeep : ∀ (v : State) (e : EntryId), K v → e ∈ v.tracker.taken → K (step v e))
    (hpass : ∀ (v : State) (e : EntryId), K v → e ∈ v.tracker.taken → C (step v e).tracker e) :
    K (s.tracker.taken.foldl step s) ∧ ∀ e ∈ (s.tracker.taken.foldl step s).tracker.taken, C (s.tracker.taken.foldl step s).tracker e := by
  have hfilter {v : State} (hv : ∃ p : EntryId → Bool, v.tracker.taken = s.tracker.taken.filter p) {x : EntryId} (hx : x ∈ v.tracker.taken) : x ∈ s.tracker.taken := by
    obtain ⟨p, hp⟩ := hv
    rw [hp] at hx
    exact (List.mem_filter.1 hx).1
  have hall := foldl_passes (f := step) (P := fun passed v => K v ∧ (∃ p : EntryId → Bool, v.tracker.taken = s.tracker.taken.filter p)
      ∧ (∀ y ∈ s.tracker.taken, y ∉ passed → y ∈ v.tracker.taken) ∧ ∀ x ∈ passed, x ∈ v.tracker.taken → C v.tracker x) s.tracker.taken (s := s)
    ⟨hs, ⟨fun _ => true, (List.filter_eq_self.2 fun _ _ => rfl).symm⟩, fun y hy _ => hy, fun x hx => nomatch hx⟩ ?_
  · obtain ⟨hK, hp, -, hc⟩ := hall
    exact ⟨hK, fun e he => hc e (hfilter hp he) he⟩
  rintro passed e rest v hl ⟨hK, ⟨p, hp⟩, hrest, hc⟩
  have hnodup : (passed ++ e :: rest).Nodup := hl ▸ hn
  have hnot : e ∉ passed := fun hm => (List.nodup_append.1 hnodup).2.2 e hm e List.mem_cons_self rfl
  have hlist : e ∈ s.tracker.taken := by rw [hl]; exact List.mem_append_right _ List.mem_cons_self
  have he : e ∈ v.tracker.taken := hrest e hlist hnot
  have ht := htouch v e
  refine ⟨hkeep v e hK he, ?_, fun y hy hyn => ?_, fun x hx hxt => ?_⟩
  · rcases ht.taken with htaken | htaken
    · exact ⟨p, htaken.trans hp⟩
    · exact ⟨fun y => p y && y != e, by rw [htaken, hp, List.filter_filter]; exact List.filter_congr fun y _ => Bool.and_comm ..⟩
  · rw [List.mem_append, List.mem_singleton, not_or] at hyn
    exact (ht.mem_iff hyn.2).2 (hrest y hy hyn.1)
  · rcases List.mem_append.1 hx with hx | hx
    · have hxe : x ≠ e := fun hxe => hnot (hxe ▸ hx)
      have hxv : x ∈ v.tracker.taken := (ht.mem_iff hxe).1 hxt
      refine ht.local hC hxt hxe (fun hm => ?_) (hc x hx hxv)
      rw [Tracker.before, hp, takeWhile_filter_of_pos (by rw [hp] at hxv; exact (List.mem_filter.1 hxv).2), hl] at hm
      have hm' := (List.mem_filter.1 hm).1
      rw [takeWhile_append_of_mem hx] at hm'
      exact hnot ((List.takeWhile_prefix _).subset hm')
    · obtain rfl := List.mem_singleton.1 hx
      exact hpass v x hK he

/-! ### The response order (R60) -/

/-- Between `t` and `u` the work of `e` ends: it goes DONE as it is listed, or leaves every list. -/
structure Tracker.Quits (t u : Tracker) (e : EntryId) : Prop where
  touched : t.Touched u e
  out : (u.taken = t.taken ∧ u.order = t.order ∧ u.entries[e].state = .done ∧ u.entries[e].response = t.entries[e].response)
    ∨ (u.taken = t.taken.filter (· != e) ∧ u.order = t.order.filter (· != e) ∧ u.entries[e].state = .free)

theorem Tracker.Quits.done {t u : Tracker} {e : EntryId} (h : t.Quits u e) (he : e ∈ u.taken) : u.entries[e].state = .done := by
  rcases h.out with ⟨-, -, hs, -⟩ | ⟨ht, -⟩
  · exact hs
  · rw [ht] at he; exact absurd rfl (mem_filter_ne.1 he).2

namespace Tracker.Answering

variable {t u : Tracker} {e : EntryId}

theorem congr (h : t.Answering) (ho : u.order = t.order) (ht : u.taken = t.taken)
    (hr : ∀ x : EntryId, u.entries[x].response.isSome = t.entries[x].response.isSome) : u.Answering := by
  obtain ⟨hn, hiff⟩ := h
  exact ⟨ho ▸ hn, fun x => by rw [ho, ht, hr]; exact hiff x⟩

theorem touched (h : t.Answering) (ht : t.Touched u e) (htaken : u.taken = t.taken) (ho : u.order = t.order)
    (hr : u.entries[e].response.isSome = t.entries[e].response.isSome) : u.Answering :=
  h.congr ho htaken fun x => by
    by_cases hx : x = e
    · subst hx; exact hr
    · rw [ht.others x hx]

theorem freed (h : t.Answering) (ht : t.Touched u e) (htaken : u.taken = t.taken.filter (· != e)) (ho : u.order = t.order.filter (· != e)) : u.Answering := by
  obtain ⟨hn, hiff⟩ := h
  refine ⟨ho ▸ hn.filter _, fun x => ?_⟩
  rw [ho, htaken, mem_filter_ne, mem_filter_ne, hiff]
  by_cases hx : x = e
  · exact iff_of_false (fun hh => hh.2 hx) fun hh => hh.1.2 hx
  · rw [ht.others x hx, and_iff_left hx, and_iff_left hx]

theorem quits (h : t.Answering) (hq : t.Quits u e) : u.Answering := by
  rcases hq.out with ⟨htaken, ho, -, hr⟩ | ⟨htaken, ho, -⟩
  · exact h.touched hq.touched htaken ho (by rw [hr])
  · exact h.freed hq.touched htaken ho

/-- A response joins the tail of the order. -/
theorem readied (h : t.Answering) (ht : t.Touched u e) (htaken : u.taken = t.taken) (ho : u.order = t.order ++ [e]) (he : e ∈ t.taken)
    (hnone : t.entries[e].response = none) (hsome : u.entries[e].response.isSome = true) : u.Answering := by
  obtain ⟨hn, hiff⟩ := h
  have hnew : e ∉ t.order := fun hm => by
    obtain ⟨-, hr⟩ := (hiff e).1 hm
    rw [hnone] at hr; cases hr
  refine ⟨?_, fun x => ?_⟩
  · rw [ho]
    exact nodup_concat hn hnew
  · rw [ho, htaken, List.mem_append, List.mem_singleton, hiff]
    by_cases hx : x = e
    · subst hx; exact iff_of_true (.inr rfl) ⟨he, hsome⟩
    · rw [ht.others x hx, or_iff_left hx]

/-- A new entry, with its response at the tail of the order where it has one. -/
theorem takes (h : t.Answering) (ht : t.Takes u e)
    (ho : u.order = t.order ∧ u.entries[e].response = none ∨ u.order = t.order ++ [e] ∧ u.entries[e].response.isSome = true) : u.Answering := by
  obtain ⟨hn, hiff⟩ := h
  have hnew : e ∉ t.order := fun hm => ht.new ((hiff e).1 hm).1
  have hold (x : EntryId) (hx : x ≠ e) : x ∈ t.order ↔ x ∈ u.taken ∧ u.entries[x].response.isSome = true := by
    rw [hiff, ht.mem_iff, or_iff_left hx, ht.others x hx]
  rcases ho with ⟨ho, hr⟩ | ⟨ho, hr⟩
  · refine ⟨ho ▸ hn, fun x => ?_⟩
    rw [ho]
    by_cases hx : x = e
    · subst hx; exact iff_of_false hnew fun hh => by rw [hr] at hh; cases hh.2
    · exact hold x hx
  · refine ⟨?_, fun x => ?_⟩
    · rw [ho]
      exact nodup_concat hn hnew
    · rw [ho, List.mem_append, List.mem_singleton]
      by_cases hx : x = e
      · subst hx; exact iff_of_true (.inr rfl) ⟨ht.mem_iff.2 (.inr rfl), hr⟩
      · rw [or_iff_left hx]; exact hold x hx

end Tracker.Answering

/-! ### The operations that end an entry's work -/

theorem State.goDone_quits (e : EntryId) (st : Status) (s : State) : s.tracker.Quits (s.goDone e st).tracker e where
  touched := s.goDone_touched e st
  out := .inl ⟨rfl, rfl, by rw [State.goDone_same], by rw [State.goDone_same]⟩

theorem State.freeEntry_quits (e : EntryId) (s : State) : s.tracker.Quits (s.freeEntry e).tracker e where
  touched := s.freeEntry_touched e
  out := .inr ⟨s.freeEntry_taken e, s.freeEntry_order e, by rw [State.freeEntry_same]; rfl⟩

theorem State.endPosted_quits (e : EntryId) (st : Status) (s : State) : s.tracker.Quits (s.endPosted e st).tracker e where
  touched := s.endPosted_touched e st
  out := by
    cases hr : s.tracker.entries[e].response with
    | some r =>
      obtain ⟨hentry, htaken, horder⟩ := State.endPosted_of_response (e := e) (st := st) (s := s) (by rw [hr]; rfl)
      exact .inl ⟨htaken, horder, by rw [hentry], by rw [hentry, ← hr]⟩
    | none =>
      obtain ⟨hentry, htaken, horder⟩ := State.endPosted_of_no_response (st := st) hr
      exact .inr ⟨htaken, horder, by rw [hentry]; rfl⟩

theorem State.stopEntry_quits (e : EntryId) (st : Status) (s : State) : s.tracker.Quits (s.stopEntry e st).tracker e :=
  State.stopEntry_cases (P := fun v => s.tracker.Quits v.tracker e) (fun _ => s.endPosted_quits e st) (fun _ _ => s.freeEntry_quits e) fun _ _ => s.goDone_quits e st

theorem State.syncDone_quits (e : EntryId) (s : State) : s.tracker.Quits (s.syncDone e).tracker e where
  touched := s.syncDone_touched e
  out := .inl ⟨rfl, rfl, by rw [State.syncDone_same]; rfl, by rw [State.syncDone_same]; rfl⟩

end Sys2Proof.Machine

/-! The soundness of one bay engine (O59) in two parts: what holds of it throughout an event, and what its end by itself restores (R117, R133). -/

namespace Sys2Proof.Machine

/-! ### What holds throughout an event -/

/-- The parts of a sound bay that do not ask whether anything that could happen by itself has happened. -/
structure Bay.Fit (b : Bay) : Prop where
  outputs : b.OutputsSound
  holdings : b.HoldingsSound
  owed : b.owed ≤ Config.owedMax
  outside : b.state.inService = false → b.owed = 0 ∧ b.queue = []
  exchange : b.exchange.isSome = true → b.state.arbitrates = true
  forced : b.forced = true → b.state.arbitrates = true
  unit : b.unit.isSome = true → b.state = .online ∨ b.state = .draining
  poll : ∀ x, b.exchange = some x → x.op = .poll → b.unit = none
  due : b.due = true → b.BusFree
  lanes : ∀ l : LaneId, b.lanes[l].Sound

/-- And no wake cause stands in PARKED (R134). -/
structure Bay.Whole (b : Bay) : Prop extends b.Fit where
  parked : b.state = .parked → b.queue = [] ∧ b.owed < Config.owedMax ∧ b.drainRequested = false

theorem Bay.sound_iff (b : Bay) : b.Sound ↔ b.Whole ∧ b.timeouts < Config.timeoutMax ∧ b.Settled := by
  constructor
  · rintro ⟨hout, hhold, ⟨howed, houtside, htimeouts, hx, hforced, hunit, hpoll, hdue, hparked⟩, hsettled, hlanes⟩
    exact ⟨⟨⟨hout, hhold, howed, houtside, hx, hforced, hunit, hpoll, hdue, hlanes⟩, hparked⟩, htimeouts, hsettled⟩
  · rintro ⟨⟨⟨hout, hhold, howed, houtside, hx, hforced, hunit, hpoll, hdue, hlanes⟩, hparked⟩, htimeouts, hsettled⟩
    exact ⟨hout, hhold, ⟨howed, houtside, htimeouts, hx, hforced, hunit, hpoll, hdue, hparked⟩, hsettled, hlanes⟩

/-- Outside PARKING and DRAINING nothing is left to end by itself. -/
theorem Bay.settled_of_state {b : Bay} (hp : b.state ≠ .parking) (hd : b.state ≠ .draining) : b.Settled := ⟨fun h => absurd h hp, fun h => absurd h hd⟩

namespace Bay.Fit

variable {b : Bay}

theorem whole (h : b.Fit) (hs : b.state ≠ .parked) : b.Whole := ⟨h, fun hp => absurd hp hs⟩

theorem exchange_eq_none (h : b.Fit) (hs : b.state.arbitrates = false) : b.exchange = none :=
  Option.isNone_iff_eq_none.1 (Option.isSome_eq_false_iff.1 (Bool.eq_false_iff.2 fun hx => by rw [h.exchange hx] at hs; cases hs))

theorem unit_eq_none (h : b.Fit) (ho : b.state ≠ .online) (hd : b.state ≠ .draining) : b.unit = none :=
  Option.isNone_iff_eq_none.1 (Option.isSome_eq_false_iff.1 (Bool.eq_false_iff.2 fun hu => (h.unit hu).elim ho hd))

theorem depth_isSome (h : b.Fit) (hs : b.state.hasDepth = true) : b.depth.isSome = true := by
  obtain ⟨-, -, -, hdepth, -⟩ := h.holdings
  rw [hdepth, hs]

theorem drainRequested_eq_false (h : b.Fit) (hs : b.state.hasDepth = false) : b.drainRequested = false := by
  obtain ⟨-, -, -, -, -, hdrain, -⟩ := h.holdings
  exact Bool.eq_false_iff.2 fun hd => by rw [hdrain hd] at hs; cases hs

theorem mainRail_eq (h : b.Fit) (hs : b.state.powered = true) : b.mainRail = true := by
  obtain ⟨hmain, -⟩ := h.outputs
  rw [hmain, hs]

/-- A bay with its bus free, its arbiter not yet called. -/
theorem callArbiter (h : b.Fit) : b.callArbiter.Fit where
  outputs := h.outputs
  holdings := h.holdings
  owed := h.owed
  outside := h.outside
  exchange := h.exchange
  forced := h.forced
  unit := h.unit
  poll := h.poll
  due hd := by
    rw [Bay.callArbiter_due, Bool.or_eq_true] at hd
    exact hd.elim h.due (b.busFree_iff.1)
  lanes := h.lanes

/-- The lanes of a sound bay change. -/
theorem withLanes (h : b.Fit) {lanes : Vector Lane 4} (hl : ∀ l : LaneId, lanes[l].Sound) : Bay.Fit { b with lanes := lanes } where
  outputs := h.outputs
  holdings := h.holdings
  owed := h.owed
  outside := h.outside
  exchange := h.exchange
  forced := h.forced
  unit := h.unit
  poll := h.poll
  due := h.due
  lanes := hl

/-- Work for a bay in service. -/
theorem withQueue (h : b.Fit) {q : List EntryId} (hq : b.state.inService = false → q = []) : Bay.Fit { b with queue := q } where
  outputs := h.outputs
  holdings := h.holdings
  owed := h.owed
  outside hs := ⟨(h.outside hs).1, hq hs⟩
  exchange := h.exchange
  forced := h.forced
  unit := h.unit
  poll := h.poll
  due := h.due
  lanes := h.lanes

end Bay.Fit

/-! ### Entering a state (Table 6-1, R102) -/

/-- What must hold before a bay enters a state, for it to be fit there. -/
structure Bay.Enters (b : Bay) (st : BayState) : Prop where
  lanes : ∀ l : LaneId, b.lanes[l].Sound
  service : st.inService = true → b.identity.isSome = true ∧ b.pollTimer.isSome = true ∧ b.owed ≤ Config.owedMax
  outside : st.inService = false → b.queue = []
  depth : st.hasDepth = true → b.depth.isSome = true
  drain : b.drainRequested = true → st.hasDepth = true
  fault : st = .faulted → b.cause ≠ .none ∧ (b.railGood = true → b.mainRail = true)
  exchange : b.exchange.isSome = true → st.arbitrates = true
  unit : b.unit.isSome = true → st = .online ∨ st = .draining
  poll : ∀ x, b.exchange = some x → x.op = .poll → b.unit = none
  due : b.due = true → b.exchange = none ∧ b.unit = none

theorem BayState.arbitrates_iff (st : BayState) : st.arbitrates = true ↔ st = .online ∨ st = .parking ∨ st = .draining := by
  cases st <;> decide

theorem BayState.inService_of_hasDepth {st : BayState} : st.hasDepth = true → st.inService = true := by
  cases st <;> decide

theorem BayState.powered_of_inService {st : BayState} (h : st.inService = true) : st.powered = true := (BayState.of_inService h).1

theorem Bay.Enters.fit {b : Bay} {st : BayState} (h : b.Enters st) {tm : Option Nat} (htm : tm.isSome = st.timed) : Bay.Fit { b.enter st with timer := tm } where
  outputs := ⟨rfl, rfl, rfl⟩
  holdings := by
    refine ⟨?identity, ?poll, htm, ?depth, ?cause, h.drain, fun hs => ?line, fun hs => ?rail⟩
    case identity =>
      show (if st.inService then b.identity else none).isSome = st.inService
      cases hs : st.inService with
      | true => exact (h.service hs).1
      | false => rfl
    case poll =>
      show (if st.inService then b.pollTimer else none).isSome = st.inService
      cases hs : st.inService with
      | true => exact (h.service hs).2.1
      | false => rfl
    case depth =>
      show (if st.hasDepth then b.depth else none).isSome = st.hasDepth
      cases hs : st.hasDepth with
      | true => exact h.depth hs
      | false => rfl
    case cause =>
      show (if st == .faulted then b.cause else .none) ≠ .none ↔ st = .faulted
      by_cases hs : st = .faulted
      · rw [if_pos (beq_iff_eq.2 hs)]; exact iff_of_true (h.fault hs).1 hs
      · rw [if_neg (mt beq_iff_eq.1 hs)]; exact iff_of_false (fun hn => hn rfl) hs
    case line =>
      have hst : st = .identifying := hs
      show (if st == .identifying then _ else _) = _
      rw [if_pos (beq_iff_eq.2 hst)]
    case rail =>
      have hst : st = .faulted := hs
      obtain ⟨-, hrail⟩ := h.fault hst
      show (b.railGood && !(b.mainRail && !st.powered)) = false
      cases hr : b.railGood with
      | false => rfl
      | true => rw [hrail hr, hst]; rfl
  owed := by
    show (if st.inService then b.owed else 0) ≤ Config.owedMax
    split
    · next hs => exact (h.service hs).2.2
    · exact Nat.zero_le _
  outside hs := ⟨by
    have hst : st.inService = false := hs
    show (if st.inService then b.owed else 0) = 0
    rw [hst]
    rfl, h.outside hs⟩
  exchange := h.exchange
  forced hf := (Bool.and_eq_true_iff.1 hf).2
  unit := h.unit
  poll := h.poll
  due hd := by
    obtain ⟨hb, hst⟩ := Bool.and_eq_true_iff.1 hd
    obtain ⟨hx, hu⟩ := h.due hb
    exact ⟨(BayState.arbitrates_iff st).1 hst, hx, hu⟩
  lanes := h.lanes

/-- With nothing on its bus a bay in service enters another state in service. -/
theorem Bay.Fit.enters_service {b : Bay} (h : b.Fit) (hs : b.state.inService = true) {st : BayState} (hdepth : st.hasDepth = true → b.depth.isSome = true)
    (hdrain : b.drainRequested = true → st.hasDepth = true) (hf : st ≠ .faulted) (hst : st.inService = true) (hx : b.exchange.isSome = true → st.arbitrates = true)
    (hu : b.unit.isSome = true → st = .online ∨ st = .draining) : b.Enters st := by
  obtain ⟨hid, hpoll, -⟩ := h.holdings
  exact { lanes := h.lanes, service := fun _ => ⟨hid.trans hs, hpoll.trans hs, h.owed⟩, outside := fun hn => by rw [hst] at hn; cases hn
          depth := hdepth, drain := hdrain, fault := fun h => absurd h hf, exchange := hx, unit := hu, poll := h.poll, due := fun hd => (h.due hd).2 }

/-- A bay whose bus holds nothing, and which drains nothing, enters a state out of service. -/
theorem Bay.enters_outside {b : Bay} {st : BayState} (hl : ∀ l : LaneId, b.lanes[l].Sound) (hq : b.queue = []) (hx : b.exchange = none) (hu : b.unit = none)
    (hd : b.drainRequested = false) (hst : st.inService = false) (hf : st = .faulted → b.cause ≠ .none ∧ (b.railGood = true → b.mainRail = true)) : b.Enters st where
  lanes := hl
  service h := by rw [hst] at h; cases h
  outside _ := hq
  depth h := by rw [BayState.inService_of_hasDepth h] at hst; cases hst
  drain h := by rw [hd] at h; cases h
  fault := hf
  exchange h := by rw [hx] at h; cases h
  unit h := by rw [hu] at h; cases h
  poll _ _ _ := hu
  due _ := ⟨hx, hu⟩

/-- A bay out of service enters another such state. -/
theorem Bay.Fit.enters_outside {b : Bay} (h : b.Fit) (hs : b.state.inService = false) {st : BayState} (hst : st.inService = false) (hf : st ≠ .faulted) : b.Enters st := by
  have hquiet : b.state.arbitrates = false ∧ b.state ≠ .online ∧ b.state ≠ .draining ∧ b.state.hasDepth = false := by
    revert hs
    cases b.state <;> decide
  obtain ⟨harb, ho, hd, hdepth⟩ := hquiet
  exact Bay.enters_outside h.lanes (h.outside hs).2 (h.exchange_eq_none harb) (h.unit_eq_none ho hd) (h.drainRequested_eq_false hdepth) hst fun h => absurd h hf

/-! ### The wake (R134, R135) -/

/-- The end of a wake: ONLINE, or the drain that was requested. -/
theorem Bay.Fit.wakeEnds {b : Bay} (h : b.Fit) (hs : b.state.inService = true) (hx : b.exchange = none) (hu : b.unit = none) :
    b.wakeEnds.Whole ∧ (b.drainRequested = false → b.wakeEnds.state = .online) := by
  have hnone {α : Type} {o : Option α} {p : Prop} (ho : o = none) : o.isSome = true → p := fun hh => by rw [ho] at hh; cases hh
  unfold Bay.wakeEnds
  dsimp only
  cases hd : b.drainRequested with
  | false =>
    rw [if_neg (by rw [show ({ b.enter .online with timeouts := 0 } : Bay).drainRequested = b.drainRequested from rfl, hd]; decide)]
    have henters : Bay.Enters { b with timeouts := 0 } .online :=
      Bay.Fit.enters_service (b := { b with timeouts := 0 }) ⟨h.outputs, h.holdings, h.owed, h.outside, h.exchange, h.forced, h.unit, h.poll, h.due, h.lanes⟩ hs nofun
        (fun hh => by rw [show _ = b.drainRequested from rfl, hd] at hh; cases hh) nofun rfl (hnone hx) (hnone hu)
    exact ⟨(henters.fit (tm := none) rfl).callArbiter.whole nofun, fun _ => rfl⟩
  | true =>
    rw [if_pos (show ({ b.enter .online with timeouts := 0 } : Bay).drainRequested = true from hd)]
    refine ⟨?_, nofun⟩
    have honline : Bay.Fit ({ ({ b with timeouts := 0, drainRequested := false } : Bay).enter .online with timer := none } : Bay) := by
      refine Bay.Enters.fit ?_ rfl
      obtain ⟨hid, hpoll, -⟩ := h.holdings
      exact { lanes := h.lanes, service := fun _ => ⟨hid.trans hs, hpoll.trans hs, h.owed⟩, outside := nofun, depth := nofun, drain := nofun, fault := nofun
              exchange := hnone hx, unit := hnone hu, poll := h.poll, due := fun hd => (h.due hd).2 }
    exact ((honline.enters_service (st := .draining) rfl nofun nofun nofun rfl (hnone hx) (hnone hu)).fit (tm := none) rfl).callArbiter.whole nofun

/-- A wake does not lead to PARKING. -/
theorem Bay.wakeEnds_state (b : Bay) : b.wakeEnds.state = .online ∨ b.wakeEnds.state = .draining := by
  unfold Bay.wakeEnds
  dsimp only
  split
  · exact .inr rfl
  · exact .inl rfl

theorem Bay.startWake_state (b : Bay) : b.startWake.state ≠ .parking := by
  rw [Bay.startWake_eq]
  split
  · rcases (b.enter .waking).wakeEnds_state with h | h <;> rw [h] <;> decide
  · nofun

theorem Bay.Fit.startWake {b : Bay} (h : b.Fit) (hs : b.state.inService = true) (hdepth : b.depth.isSome = true) (hx : b.exchange = none) (hu : b.unit = none) :
    b.startWake.Whole ∧ (b.drainRequested = false → b.startWake.state = .online ∨ b.startWake.state = .waking) := by
  have hnone {α : Type} {o : Option α} {p : Prop} (ho : o = none) : o.isSome = true → p := fun hh => by rw [ho] at hh; cases hh
  have henters : b.Enters .waking := h.enters_service hs (fun _ => hdepth) (fun _ => rfl) nofun rfl (hnone hx) (hnone hu)
  rw [Bay.startWake_eq]
  split
  · -- The timer of WAKING is not started; the wake ends in the same event.
    have hends : (b.enter .waking).wakeEnds = ({ b.enter .waking with timer := some 0 } : Bay).wakeEnds := rfl
    rw [hends]
    obtain ⟨hwhole, hstate⟩ := (henters.fit (tm := some 0) rfl).wakeEnds rfl hx hu
    exact ⟨hwhole, fun hd => .inl (hstate hd)⟩
  · exact ⟨(henters.fit rfl).whole nofun, fun _ => .inr rfl⟩

/-- A PARKED bay with a wake cause wakes; another stays. -/
theorem Bay.Fit.wakeCheck {b : Bay} (h : b.Fit) :
    b.wakeCheck.Whole ∧ (b.wakeCheck = b ∨ b.state = .parked ∧ (b.drainRequested = false → b.wakeCheck.state = .online ∨ b.wakeCheck.state = .waking)) := by
  unfold Bay.wakeCheck
  split
  · next hc =>
    rw [Bool.and_eq_true, beq_iff_eq] at hc
    obtain ⟨hs, -⟩ := hc
    obtain ⟨hwhole, hstate⟩ := h.startWake (by rw [hs]; rfl) (h.depth_isSome (by rw [hs]; rfl)) (h.exchange_eq_none (by rw [hs]; rfl))
      (h.unit_eq_none (by rw [hs]; decide) (by rw [hs]; decide))
    exact ⟨hwhole, .inr ⟨hs, hstate⟩⟩
  · next hc =>
    refine ⟨⟨h, fun hs => ?_⟩, .inl rfl⟩
    rw [hs] at hc
    simp only [beq_self_eq_true, Bool.true_and, Bool.or_eq_true, not_or, Bool.not_eq_true', beq_iff_eq, Bool.not_eq_true, List.isEmpty_eq_false_iff, ne_eq,
      Classical.not_not] at hc
    obtain ⟨⟨hq, howed⟩, hd⟩ := hc
    exact ⟨hq, Nat.lt_of_le_of_ne h.owed howed, hd⟩

/-! ### The end by itself (R117, R133) -/

theorem Bay.Whole.parkSettle {b : Bay} (h : b.Whole) : b.parkSettle.Whole ∧ (b.parkSettle.state = .parking → b.parkSettle.Settled) := by
  unfold Bay.parkSettle
  split
  · next hc =>
    simp only [Bool.and_eq_true, beq_iff_eq, Option.isNone_iff_eq_none] at hc
    obtain ⟨⟨hs, hx⟩, -⟩ := hc
    have hu : b.unit = none := h.unit_eq_none (by rw [hs]; decide) (by rw [hs]; decide)
    have henters : b.Enters .parked := h.enters_service (by rw [hs]; rfl) (fun _ => h.depth_isSome (by rw [hs]; rfl)) (fun _ => rfl) nofun rfl
      (fun hh => by rw [hx] at hh; cases hh) (fun hh => by rw [hu] at hh; cases hh)
    have hfit : (b.enter .parked).Fit := henters.fit (tm := none) rfl
    refine ⟨hfit.wakeCheck.1, fun hp => ?_⟩
    unfold Bay.wakeCheck at hp
    split at hp
    · exact absurd hp (Bay.startWake_state _)
    · cases hp
  · next hc =>
    refine ⟨h, fun hs => ⟨fun _ => ?_, fun hd => absurd (hs.symm.trans hd) (by decide)⟩⟩
    have hover : ¬ b.ParkOver := fun ho => hc (by
      rw [Bool.and_assoc, (b.parkOver_iff (h.depth_isSome (by rw [hs]; rfl))).2 ho, hs]
      rfl)
    exact ⟨fun hd hl => hover (.inl ⟨hd, hl⟩), fun hd ha => hover (.inr ⟨hd, ha⟩)⟩

theorem Lane.Sound.released {x : Lane} (h : x.Sound) (hs : x.state = .opened) : Lane.Sound { x with releasePending := true } :=
  ⟨fun hn => absurd hs hn, h.2.1, h.2.2⟩

/-- The lanes after a release-all. -/
theorem Bay.releaseAll_lane (b : Bay) (l : LaneId) : b.releaseAll.lanes[l] =
    if b.lanes[l].state = .opened ∧ b.lanes[l].pinned = false then { b.lanes[l] with releasePending := true } else b.lanes[l] := b.releaseAll_lanesReleased l

theorem Bay.Fit.releaseAll {b : Bay} (h : b.Fit) : b.releaseAll.Fit := by
  refine h.withLanes (lanes := b.releaseAll.lanes) fun l => ?_
  rw [Bay.releaseAll_lane]
  split
  · next hl => exact (h.lanes l).released hl.1
  · exact h.lanes l

/-- After its release-all a drain that goes on has nothing left to release. -/
theorem Bay.releaseAll_settled {b : Bay} (hs : b.state = .draining) (ho : ¬ b.AllClosed) : b.releaseAll.Settled := by
  refine ⟨fun hp => absurd (hs.symm.trans hp) (by decide), fun _ _ => ⟨fun hall => ?_, fun l hl hpin => ?_⟩⟩
  · obtain ⟨hx, hclosed⟩ := hall
    exact ho ⟨hx, fun l => (b.releaseAll_lane_state l) ▸ hclosed l⟩
  · have hl' : b.lanes[l].state = .opened := (b.releaseAll_lane_state l) ▸ hl
    rw [Bay.releaseAll_lane] at hpin ⊢
    by_cases hc : b.lanes[l].pinned = false
    · rw [if_pos ⟨hl', hc⟩]
    · rw [if_neg fun hh => hc hh.2] at hpin
      exact absurd hpin hc

theorem Bay.Whole.drainSettle {b : Bay} (h : b.Whole) (hqueue : ∀ u, b.unit = some u → b.queue ≠ []) (hp : b.state = .parking → b.Settled) :
    b.drainSettle.Whole ∧ b.drainSettle.Settled := by
  unfold Bay.drainSettle
  split
  · next hc =>
    rw [Bool.and_eq_true, beq_iff_eq, Bay.idle_iff] at hc
    obtain ⟨hs, hq⟩ := hc
    split
    · next hall =>
      obtain ⟨hx, -⟩ := b.allClosed_iff.1 hall
      have hu : b.unit = none := Option.eq_none_iff_forall_ne_some.2 fun u hu => hqueue u hu hq
      have henters : b.Enters .unpowered := Bay.enters_outside h.lanes hq hx hu (h.drainRequested_eq_false (by rw [hs]; rfl)) rfl nofun
      exact ⟨(henters.fit (tm := none) rfl).whole nofun, Bay.settled_of_state nofun nofun⟩
    · next hall =>
      have hsettled := Bay.releaseAll_settled hs (mt b.allClosed_iff.2 hall)
      unfold Bay.drainRelease
      split
      · next hl =>
        have hsame : b.releaseAll = b := by
          show ({ b with lanes := b.releaseAll.lanes } : Bay) = b
          rw [hl]
        exact ⟨h, hsame ▸ hsettled⟩
      · refine ⟨h.toFit.releaseAll.callArbiter.whole fun hh => ?_, hsettled⟩
        exact absurd (hs.symm.trans hh) (by decide)
  · next hc =>
    refine ⟨h, fun hs => (hp hs).1 hs, fun hs hq => absurd ?_ hc⟩
    rw [hs, b.idle_iff.2 hq]
    rfl

/-- The end of an event at a bay makes it settled. -/
theorem Bay.Whole.settle {b : Bay} (h : b.Whole) (hqueue : ∀ u, b.unit = some u → b.queue ≠ []) : b.settle.Whole ∧ b.settle.Settled := by
  obtain ⟨hwhole, hp⟩ := h.parkSettle
  refine hwhole.drainSettle (fun u hu => ?_) hp
  have hcarries : b.Carries b.parkSettle := .parkSettle b
  obtain ⟨w, hw, -⟩ := hcarries.unit u hu
  rw [hcarries.queue]
  exact hqueue w hw

end Sys2Proof.Machine

/-! What the operations of one bay engine keep of its soundness (O59): its bus and lanes (Chapters 4 and 5), and its life outside service (Chapter 6). -/

namespace Sys2Proof.Machine

/-! ### Where a bay stands in the course of an event -/

/-- How much of its soundness a bay has at a point of an event: all of it, all but its end by itself, all but that and its timeout count in a bay in service, or nothing yet. -/
inductive Standing
  | sound | going | late | loose

def Bay.Stands (b : Bay) : Standing → Prop
  | .sound => b.Sound
  | .going => b.Whole ∧ b.timeouts < Config.timeoutMax
  | .late => b.Whole ∧ b.state.inService = true
  | .loose => True

theorem Bay.Sound.whole {b : Bay} (h : b.Sound) : b.Whole := ((b.sound_iff).1 h).1

theorem Bay.Sound.timeouts_lt {b : Bay} (h : b.Sound) : b.timeouts < Config.timeoutMax := ((b.sound_iff).1 h).2.1

theorem Bay.Sound.going {b : Bay} (h : b.Sound) : b.Stands .going := ⟨h.whole, h.timeouts_lt⟩

/-- A fit bay outside PARKED, PARKING and DRAINING. -/
theorem Bay.Fit.sound {b : Bay} (h : b.Fit) (ht : b.timeouts < Config.timeoutMax) (h1 : b.state ≠ .parked) (h2 : b.state ≠ .parking) (h3 : b.state ≠ .draining) : b.Sound :=
  (b.sound_iff).2 ⟨h.whole h1, ht, Bay.settled_of_state h2 h3⟩

/-- The end of an event. -/
theorem Bay.Stands.settle {b : Bay} (h : b.Stands .going) (hqueue : ∀ u, b.unit = some u → b.queue ≠ []) : b.settle.Sound := by
  obtain ⟨hwhole, ht⟩ := h
  obtain ⟨hw, hs⟩ := hwhole.settle hqueue
  exact (b.settle.sound_iff).2 ⟨hw, Nat.lt_of_le_of_lt (Bay.Carries.settle b).timeouts ht, hs⟩

theorem Bay.Whole.callArbiter {b : Bay} (h : b.Whole) : b.callArbiter.Whole := ⟨h.toFit.callArbiter, h.parked⟩

/-! ### Arrivals (R42, R82, R134) -/

theorem Bay.takesRequests_states {b : Bay} (h : b.takesRequests = true) : b.state.inService = true ∧ b.state ≠ .draining ∧ b.drainRequested = false := by
  obtain ⟨hs, hd⟩ := (b.takesRequests_iff).1 h
  refine ⟨?_, ?_, hd⟩
  · rcases hs with hs | hs | hs | hs <;> rw [hs] <;> rfl
  · rcases hs with hs | hs | hs | hs <;> rw [hs] <;> decide

/-- What a bay becomes by an arrival, in two steps: the entry joins the queue, and the bay may wake. -/
theorem Bay.Whole.enqueue {b : Bay} (h : b.Whole) (ht : b.takesRequests = true) (e : EntryId) :
    (b.enqueue e).Whole ∧ ((b.enqueue e).state = b.state ∧ (b.enqueue e).exchange = b.exchange ∧ (b.enqueue e).lanes = b.lanes ∧ (b.enqueue e).depth = b.depth
      ∨ (b.enqueue e).state = .online ∨ (b.enqueue e).state = .waking) := by
  obtain ⟨hs, -, hd⟩ := Bay.takesRequests_states ht
  have hjoined : Bay.Fit { b with queue := b.queue ++ [e] } := h.toFit.withQueue fun hn => by rw [hs] at hn; cases hn
  have hwakes {v : Bay} (hv : v.Fit) (hstate : v.state = b.state) (hx : v.exchange = b.exchange) (hl : v.lanes = b.lanes) (hdepth : v.depth = b.depth)
      (hdrain : v.drainRequested = b.drainRequested) : v.wakeCheck.Whole ∧ (v.wakeCheck.state = b.state ∧ v.wakeCheck.exchange = b.exchange ∧ v.wakeCheck.lanes = b.lanes
        ∧ v.wakeCheck.depth = b.depth ∨ v.wakeCheck.state = .online ∨ v.wakeCheck.state = .waking) := by
    obtain ⟨hwhole, hsame | ⟨-, hwoken⟩⟩ := hv.wakeCheck
    · exact ⟨hwhole, .inl (by rw [hsame]; exact ⟨hstate, hx, hl, hdepth⟩)⟩
    · exact ⟨hwhole, .inr (hwoken (hdrain.trans hd))⟩
  rw [Bay.enqueue_eq]
  split
  · exact hwakes hjoined.callArbiter rfl rfl rfl rfl rfl
  · exact hwakes hjoined rfl rfl rfl rfl rfl

theorem Bay.enqueue_timeouts (b : Bay) (e : EntryId) : (b.enqueue e).timeouts ≤ b.timeouts := (b.enqueue_carries e).timeouts

/-- A bay stands as it stood after an arrival. -/
theorem Bay.Stands.enqueue {b : Bay} {st : Standing} (h : b.Stands st) (ht : b.takesRequests = true) (e : EntryId) : (b.enqueue e).Stands st := by
  cases st with
  | sound =>
    obtain ⟨hwhole, htimeouts, hsettled⟩ := (b.sound_iff).1 h
    obtain ⟨hw, hstate⟩ := hwhole.enqueue ht e
    refine ((b.enqueue e).sound_iff).2 ⟨hw, Nat.lt_of_le_of_lt (b.enqueue_timeouts e) htimeouts, ?_⟩
    rcases hstate with ⟨hs, hx, hl, hd⟩ | hs | hs
    · refine ⟨fun hp => ?_, fun hdrain => absurd (hs.symm.trans hdrain) (Bay.takesRequests_states ht).2.1⟩
      rw [Bay.LightParkOver, Bay.AllClosed, hx, hl, hd]
      exact hsettled.1 (hs.symm.trans hp)
    · exact Bay.settled_of_state (by rw [hs]; decide) (by rw [hs]; decide)
    · exact Bay.settled_of_state (by rw [hs]; decide) (by rw [hs]; decide)
  | going => exact ⟨(h.1.enqueue ht e).1, Nat.lt_of_le_of_lt (b.enqueue_timeouts e) h.2⟩
  | late =>
    obtain ⟨hw, hstate⟩ := h.1.enqueue ht e
    refine ⟨hw, ?_⟩
    rcases hstate with ⟨hs, -⟩ | hs | hs
    · rw [hs]; exact h.2
    · rw [hs]; rfl
    · rw [hs]; rfl
  | loose => trivial

/-! ### The lanes (4.2) -/

theorem Bay.setLane_same (b : Bay) (p : LaneId) (x : Lane) : (b.setLane p x).lanes[p] = x := Vector.getElem_set_self p.isLt

theorem Bay.setLane_other {b : Bay} {l p : LaneId} (h : l ≠ p) (x : Lane) : (b.setLane p x).lanes[l] = b.lanes[l] :=
  Vector.getElem_set_ne p.isLt l.isLt fun heq => h (Fin.ext heq.symm)

theorem Bay.setLane_sound {b : Bay} (h : ∀ l : LaneId, b.lanes[l].Sound) (p : LaneId) {x : Lane} (hx : x.Sound) (l : LaneId) : (b.setLane p x).lanes[l].Sound := by
  by_cases hl : l = p
  · subst hl
    rw [Bay.setLane_same]
    exact hx
  · rw [Bay.setLane_other hl]
    exact h l

theorem Lane.sound_opening (p : Nat) : Lane.Sound { Lane.shut with state := .opening, page := some p } := ⟨fun _ => ⟨rfl, rfl, rfl, rfl⟩, fun _ => rfl, nofun⟩

theorem Lane.sound_closing (p : Option Nat) (n : Option Nat) : Lane.Sound { Lane.shut with state := .closing, page := p, recoveryTimer := n } :=
  ⟨fun _ => ⟨rfl, rfl, rfl, rfl⟩, fun h => absurd rfl h, nofun⟩

/-- A lane in OPEN may hold any flags, and a dwell timer. -/
theorem Lane.sound_opened {x : Lane} (hs : x.state = .opened) (hr : x.recoveryTimer = none) : x.Sound :=
  ⟨fun h => absurd hs h, fun _ => hr, fun h => absurd (hs.symm.trans h) (by decide)⟩

theorem Lane.Sound.recoveryTimer_of_opened {x : Lane} (h : x.Sound) (hs : x.state = .opened) : x.recoveryTimer = none := h.2.1 (by rw [hs]; decide)

/-- A flag of a lane goes off, or the lane is OPEN. -/
theorem Lane.Sound.withFlags {x : Lane} (h : x.Sound) {r p : Bool} (hr : r = true → x.releasePending = true ∨ x.state = .opened) (hp : p = true → x.pinned = true ∨ x.state = .opened) :
    Lane.Sound { x with releasePending := r, pinned := p } := by
  obtain ⟨hflags, hrest⟩ := h
  refine ⟨fun hs => ?_, hrest⟩
  obtain ⟨hd, hrel, hpin, ht⟩ := hflags hs
  refine ⟨hd, Bool.eq_false_iff.2 fun hh => ?_, Bool.eq_false_iff.2 fun hh => ?_, ht⟩
  · exact (hr hh).elim (fun hx => by rw [hrel] at hx; cases hx) hs
  · exact (hp hh).elim (fun hx => by rw [hpin] at hx; cases hx) hs

theorem Bay.openLane_sound {b : Bay} (h : ∀ l : LaneId, b.lanes[l].Sound) (p : LaneId) (l : LaneId) : (b.openLane p).lanes[l].Sound :=
  Bay.setLane_sound h p (Lane.sound_opened rfl rfl) l

theorem Bay.openLane_state (b : Bay) (p : LaneId) : (b.openLane p).lanes[p].state = .opened := by
  rw [Bay.openLane, Bay.setLane_same]

theorem Bay.startRecovery_sound {b : Bay} (h : ∀ l : LaneId, b.lanes[l].Sound) (p : LaneId) (l : LaneId) : (b.startRecovery p).lanes[l].Sound := by
  unfold Bay.startRecovery
  split
  · exact Bay.setLane_sound h p Lane.sound_shut l
  · exact Bay.setLane_sound h p (Lane.sound_closing _ _) l

/-! ### The unit under way (R76, R86, R97) -/

/-- What the exchanges of a unit of entry `e` can make of bay `b`: its lanes, its unit and its exchange change, no POLL is issued, and sound lanes stay sound, as far as `σ` asks for them. -/
inductive Bay.OnBus (σ : Prop) (b : Bay) (e : EntryId) : Bay → Prop
  | intro (lanes : Vector Lane 4) (u : Option UnitRun) (x : Option Exchange) (hl : σ → ∀ l : LaneId, lanes[l].Sound) (hu : ∀ r, u = some r → r.entry = e)
      (hx : ∀ y, x = some y → y.op ≠ .poll) : b.OnBus σ e { b with lanes := lanes, unit := u, exchange := x }

namespace Bay.OnBus

variable {σ : Prop} {b v w : Bay} {e : EntryId}

theorem lanes (h : b.OnBus σ e v) (hσ : σ) (l : LaneId) : v.lanes[l].Sound := by
  cases h with
  | intro lanes u x hl hu hx => exact hl hσ l

theorem queue (h : b.OnBus σ e v) : v.queue = b.queue := by cases h; rfl

theorem state (h : b.OnBus σ e v) : v.state = b.state := by cases h; rfl

theorem timeouts (h : b.OnBus σ e v) : v.timeouts = b.timeouts := by cases h; rfl

theorem unit (h : b.OnBus σ e v) : ∀ r, v.unit = some r → r.entry = e := by
  cases h with
  | intro lanes u x hl hu hx => exact hu

/-- A change of the lanes alone, before what a unit does. -/
theorem of_lanes {lanes : Vector Lane 4} (h : Bay.OnBus σ { b with lanes := lanes } e v) : b.OnBus σ e v := by
  cases h with
  | intro lanes u x hl hu hx => exact .intro lanes u x hl hu hx

/-- A unit runs in ONLINE and DRAINING, with no decision point due. -/
theorem fit (h : b.OnBus σ e v) (hσ : σ) (hb : b.Fit) (hs : b.state = .online ∨ b.state = .draining) (hd : b.due = false) : v.Fit := by
  cases h with
  | intro lanes u x hl hu hx =>
    refine ⟨hb.outputs, hb.holdings, hb.owed, hb.outside, fun _ => ?_, hb.forced, fun _ => hs, fun y hy hp => absurd hp (hx y hy), fun hh => ?_, hl hσ⟩
    · show b.state.arbitrates = true
      rcases hs with hs | hs <;> rw [hs] <;> rfl
    · have hh' : b.due = true := hh
      rw [hd] at hh'
      cases hh'

theorem whole (h : b.OnBus σ e v) (hσ : σ) (hb : b.Fit) (hs : b.state = .online ∨ b.state = .draining) (hd : b.due = false) : v.Whole :=
  (h.fit hσ hb hs hd).whole fun hp => by
    rw [h.state] at hp
    rcases hs with hs | hs <;> exact absurd (hs.symm.trans hp) (by decide)

end Bay.OnBus

theorem UnitRun.readOp_ne_poll (u : UnitRun) (j : Nat) : u.readOp j ≠ .poll := by
  unfold UnitRun.readOp
  split <;> nofun

theorem UnitRun.writeOp_ne_poll (u : UnitRun) (j : Nat) : u.writeOp j ≠ .poll := by
  unfold UnitRun.writeOp
  dsimp only
  split <;> nofun

section
variable {σ : Prop} {b : Bay} (hl : σ → ∀ l : LaneId, b.lanes[l].Sound) (u : UnitRun)
include hl

theorem Bay.issueRead_onBus (j : Nat) : b.OnBus σ u.entry (b.issueRead u j) :=
  .intro b.lanes _ _ hl (fun _ hr => by cases hr; rfl) fun _ hy => by cases hy; exact u.readOp_ne_poll j

theorem Bay.issueWrite_onBus (j : Nat) : b.OnBus σ u.entry (b.issueWrite u j) :=
  .intro b.lanes _ _ hl (fun _ hr => by cases hr; rfl) fun _ hy => by cases hy; exact u.writeOp_ne_poll j

theorem Bay.pinFor_sound (ho : ∀ p, u.place = some p → b.lanes[p.lane].state = .opened) (hσ : σ) (l : LaneId) : (b.pinFor u).lanes[l].Sound := by
  unfold Bay.pinFor
  split
  · next p hp hplace =>
    have hs := ho _ hplace
    refine Bay.setLane_sound (hl hσ) p.lane (x := { b.lanes[p.lane] with pinned := true }) ?_ l
    exact Lane.sound_opened hs ((hl hσ p.lane).recoveryTimer_of_opened hs)
  · exact hl hσ l

theorem Bay.startData_onBus (ho : ∀ p, u.place = some p → b.lanes[p.lane].state = .opened) : b.OnBus σ u.entry (b.startData u) := by
  have hpinned : b.pinFor u = { b with lanes := (b.pinFor u).lanes } := by
    unfold Bay.pinFor
    split <;> rfl
  have hsound := Bay.pinFor_sound hl u ho
  unfold Bay.startData
  rw [hpinned]
  split
  · exact .intro _ _ _ hsound (fun _ hr => by cases hr; rfl) fun _ hy => by cases hy; exact u.writeOp_ne_poll 0
  · exact .intro _ _ _ hsound (fun _ hr => by cases hr; rfl) fun _ hy => by cases hy; exact u.readOp_ne_poll 0
  · exact .intro _ _ _ hsound (fun _ hr => by cases hr; rfl) fun _ hy => by cases hy; exact u.readOp_ne_poll 0

theorem Bay.selectFor_onBus (p : LanePlace) : b.OnBus σ u.entry (b.selectFor u p) :=
  .intro _ _ _ (fun hσ => Bay.setLane_sound (hl hσ) p.lane (Lane.sound_opening p.page)) (fun _ hr => by cases hr; rfl) fun _ hy => by cases hy; nofun

theorem Bay.releaseFor_onBus (p : LanePlace) : b.OnBus σ u.entry (b.releaseFor u p) :=
  .intro _ _ _ (fun hσ => Bay.setLane_sound (hl hσ) p.lane (Lane.sound_closing b.lanes[p.lane].page none)) (fun _ hr => by cases hr; rfl) fun _ hy => by cases hy; nofun

/-- A unit waits for its lane, with nothing on the bus. -/
theorem Bay.await_onBus (hx : b.exchange = none) (ph : UnitPhase) : b.OnBus σ u.entry { b with unit := some { u with phase := ph } } :=
  .intro b.lanes _ b.exchange hl (fun _ hr => by cases hr; rfl) fun y hy => by rw [hx] at hy; cases hy

theorem Bay.beginUnit_onBus (hx : b.exchange = none) : b.OnBus σ u.entry (b.beginUnit u) := by
  unfold Bay.beginUnit
  split
  · next hp => exact Bay.startData_onBus hl u fun p hplace => nomatch hp.symm.trans hplace
  · next p hp =>
    split
    · exact Bay.selectFor_onBus hl u p
    · exact Bay.await_onBus hl u hx _
    · exact Bay.await_onBus hl u hx _
    · next hs =>
      split
      · have hdata := Bay.startData_onBus (σ := σ) (b := b.setLane p.lane { b.lanes[p.lane] with releasePending := false })
          (fun hσ => Bay.setLane_sound (hl hσ) p.lane ((hl hσ p.lane).withFlags nofun (p := b.lanes[p.lane].pinned) .inl)) u fun q hq => by
            obtain rfl := Option.some.inj (hp.symm.trans hq)
            rw [Bay.setLane_same]
            exact hs
        exact Bay.OnBus.of_lanes hdata
      · split
        · exact Bay.releaseFor_onBus hl u p
        · exact Bay.await_onBus hl u hx _

theorem Bay.endUnit_onBus : b.OnBus σ u.entry (b.endUnit u) := by
  unfold Bay.endUnit
  dsimp only
  split
  · exact .intro b.lanes _ _ hl nofun nofun
  · next p hp =>
    refine .intro _ _ _ (fun hσ => Bay.setLane_sound (hl hσ) p.lane ((hl hσ p.lane).withFlags (fun hr => ?_) nofun)) nofun nofun
    split at hr
    · next hc => exact .inr (beq_iff_eq.1 (Bool.and_eq_true_iff.1 hc).2)
    · exact .inl hr

end

theorem Bay.endUnit_unit (u : UnitRun) (b : Bay) : (b.endUnit u).unit = none := by
  unfold Bay.endUnit
  dsimp only
  split <;> rfl

theorem Bay.startRecovery_withLanes (b : Bay) (l : LaneId) : b.startRecovery l = { b with lanes := (b.startRecovery l).lanes } := by
  unfold Bay.startRecovery
  split <;> rfl

theorem Bay.afterRelease_onBus {σ : Prop} {b : Bay} (hl : σ → ∀ l : LaneId, b.lanes[l].Sound) (u : UnitRun) (p : LanePlace) (hx : b.exchange = none) :
    b.OnBus σ u.entry (b.afterRelease u p) := by
  have hsound (hσ : σ) := Bay.startRecovery_sound (hl hσ) p.lane
  refine Bay.OnBus.of_lanes (lanes := (b.startRecovery p.lane).lanes) ?_
  rw [← Bay.startRecovery_withLanes]
  unfold Bay.afterRelease
  dsimp only
  split
  · exact Bay.selectFor_onBus hsound u p
  · exact Bay.await_onBus hsound u (by rw [Bay.startRecovery_withLanes]; exact hx) _

/-- What the end of an exchange makes of the bay of the unit `u`, and of the unit: it goes on, or is over. -/
structure Bay.UnitEnds (σ : Prop) (b : Bay) (u : UnitRun) (r : Bay × UnitResult) : Prop where
  onBus : b.OnBus σ u.entry r.1
  ends : (r.2 = .going ∨ ∃ old carry, r.2 = .fetched old carry) ∨ r.1.unit = none

section
variable {σ : Prop} {b : Bay} (hl : σ → ∀ l : LaneId, b.lanes[l].Sound) {u : UnitRun} (hu : b.unit = some u) (hx : b.exchange = none)
include hl hu hx

theorem Bay.stays_onBus : b.OnBus σ u.entry b :=
  .intro b.lanes b.unit b.exchange hl (fun r hr => by rw [Option.some.inj (hu.symm.trans hr)]) fun y hy => by rw [hx] at hy; cases hy

/-- The exchange is answered ACK. -/
theorem Bay.unitAck_ends (data : Word) : b.UnitEnds σ u (b.unitAck u data) := by
  have hstays := Bay.stays_onBus hl hu hx
  unfold Bay.unitAck
  split
  · next p hph hp =>
    exact ⟨Bay.OnBus.of_lanes (Bay.startData_onBus (fun hσ => Bay.openLane_sound (hl hσ) p.lane) u fun q hq => by
      obtain rfl := Option.some.inj (hp.symm.trans hq)
      exact b.openLane_state _), .inl (.inl rfl)⟩
  · exact ⟨Bay.afterRelease_onBus hl u _ hx, .inl (.inl rfl)⟩
  · next j _ =>
    dsimp only
    split
    · exact ⟨Bay.issueRead_onBus hl { u with got := u.gotWith j data } (j + 1), .inl (.inl rfl)⟩
    · split
      · exact ⟨Bay.issueWrite_onBus hl { u with got := u.gotWith j data, value := fetchNew u.size (u.gotWith j data) u.value } 0, .inl (.inr ⟨_, _, rfl⟩)⟩
      · exact ⟨Bay.endUnit_onBus hl u, .inr (b.endUnit_unit u)⟩
      · exact ⟨Bay.endUnit_onBus hl u, .inr (b.endUnit_unit u)⟩
  · split
    · exact ⟨Bay.issueWrite_onBus hl u _, .inl (.inl rfl)⟩
    · exact ⟨Bay.endUnit_onBus hl u, .inr (b.endUnit_unit u)⟩
  all_goals exact ⟨hstays, .inl (.inl rfl)⟩

/-- The exchange is answered NAK. -/
theorem Bay.unitNak_ends : b.UnitEnds σ u (b.unitNak u) := by
  have hstays := Bay.stays_onBus hl hu hx
  unfold Bay.unitNak
  split
  · next p hph hp =>
    exact ⟨Bay.OnBus.of_lanes (Bay.endUnit_onBus (fun hσ => Bay.setLane_sound (hl hσ) p.lane Lane.sound_shut) u), .inr (Bay.endUnit_unit u _)⟩
  · exact ⟨Bay.afterRelease_onBus hl u _ hx, .inl (.inl rfl)⟩
  · exact ⟨Bay.endUnit_onBus hl u, .inr (b.endUnit_unit u)⟩
  · exact ⟨Bay.endUnit_onBus hl u, .inr (b.endUnit_unit u)⟩
  all_goals exact ⟨hstays, .inl (.inl rfl)⟩

end

/-- The exchange has timed out. -/
theorem Bay.unitTimeout_ends {σ : Prop} {b : Bay} (hl : σ → ∀ l : LaneId, b.lanes[l].Sound) (u : UnitRun) : b.UnitEnds σ u (b.unitTimeout u) := by
  unfold Bay.unitTimeout
  split
  · next p hp =>
    have hended := Bay.endUnit_onBus (fun hσ => Bay.startRecovery_sound (hl hσ) p.lane) u
    refine ⟨?_, .inr (Bay.endUnit_unit u _)⟩
    rw [Bay.startRecovery_withLanes] at hended
    dsimp only
    rw [Bay.startRecovery_withLanes]
    exact Bay.OnBus.of_lanes hended
  · exact ⟨Bay.endUnit_onBus hl u, .inr (b.endUnit_unit u)⟩

end Sys2Proof.Machine

/-! What the timers, the park and the life of a module keep of the soundness of a bay engine (O59), and the actions that a bay's engine decides (Chapters 5 to 7). -/

namespace Sys2Proof.Machine

/-! ### The lanes' timers (R74, R75) -/

/-- A bay is settled where its lanes stand to be released and closed as those of a settled bay. -/
theorem Bay.Settled.of_lanes {b v : Bay} (h : b.Settled) (hx : v.exchange = b.exchange) (hs : v.state = b.state) (hq : v.queue = b.queue) (hd : v.depth = b.depth)
    (hl : ∀ l : LaneId, v.lanes[l].state = b.lanes[l].state ∧ v.lanes[l].releasePending = b.lanes[l].releasePending ∧ v.lanes[l].pinned = b.lanes[l].pinned) :
    v.Settled := by
  have hstate (l : LaneId) := (hl l).1
  have hpending (l : LaneId) := (hl l).2.1
  have hpinned (l : LaneId) := (hl l).2.2
  rw [Bay.Settled, Bay.LightParkOver, Bay.AllClosed, hx, hs, hq, hd]
  simp only [hstate, hpending, hpinned]
  exact h

theorem Lane.Sound.dwelt {x : Lane} (h : x.Sound) (hs : x.state = .opened) : Lane.Sound { x with dwellExpired := true, dwellTimer := none } :=
  Lane.sound_opened hs (h.recoveryTimer_of_opened hs)

theorem Bay.Whole.withLanes {b : Bay} (h : b.Whole) {lanes : Vector Lane 4} (hl : ∀ l : LaneId, lanes[l].Sound) : Bay.Whole { b with lanes := lanes } :=
  ⟨h.toFit.withLanes hl, h.parked⟩

theorem Bay.Fit.due_eq_false {b : Bay} (h : b.Fit) {u : UnitRun} (hu : b.unit = some u) : b.due = false :=
  Bool.eq_false_iff.2 fun hd => by
    obtain ⟨-, -, hnone⟩ := h.due hd
    rw [hu] at hnone
    cases hnone

theorem Bay.Fit.unit_state {b : Bay} (h : b.Fit) {u : UnitRun} (hu : b.unit = some u) : b.state = .online ∨ b.state = .draining := h.unit (by rw [hu]; rfl)

theorem Bay.Sound.dwelt {b : Bay} (h : b.Sound) {l : LaneId} (hs : b.lanes[l].state = .opened) : (b.dwelt l).Sound := by
  obtain ⟨hwhole, ht, hsettled⟩ := (b.sound_iff).1 h
  refine ((b.dwelt l).sound_iff).2 ⟨hwhole.withLanes (Bay.setLane_sound hwhole.lanes l ((hwhole.lanes l).dwelt hs)), ht, hsettled.of_lanes rfl rfl rfl rfl fun k => ?_⟩
  by_cases hk : k = l
  · subst hk
    rw [Bay.dwelt, Bay.setLane_same]
    exact ⟨rfl, rfl, rfl⟩
  · rw [Bay.dwelt, Bay.setLane_other hk]
    exact ⟨rfl, rfl, rfl⟩

theorem Bay.Sound.callArbiter {b : Bay} (h : b.Sound) : b.callArbiter.Sound := by
  obtain ⟨hwhole, ht, hsettled⟩ := (b.sound_iff).1 h
  exact (b.callArbiter.sound_iff).2 ⟨hwhole.callArbiter, ht, hsettled⟩

/-- A bay with a unit on its bus is settled: it has work in its queue. -/
theorem Bay.Whole.sound_of_unit {b : Bay} (h : b.Whole) (ht : b.timeouts < Config.timeoutMax) (hs : b.state = .online ∨ b.state = .draining) (hq : b.queue ≠ []) : b.Sound :=
  (b.sound_iff).2 ⟨h, ht, fun hp => by rcases hs with hs | hs <;> exact absurd (hs.symm.trans hp) (by decide), fun _ he => absurd he hq⟩

theorem Bay.dwellEnds_cases {P : Bay → Prop} (l : LaneId) (b : Bay) (hstays : P b)
    (hwaits : ∀ u p, b.lanes[l].state = .opened → b.unit = some u → P ((b.dwelt l).releaseFor u p)) (hdwelt : b.lanes[l].state = .opened → P (b.dwelt l))
    (hcalls : b.lanes[l].state = .opened → P (b.dwelt l).callArbiter) : P (b.dwellEnds l) := by
  by_cases hrun : b.lanes[l].state = .opened ∧ b.lanes[l].dwellTimer.isSome = true
  · obtain ⟨hs, ht⟩ := hrun
    rw [Bay.dwellEnds_of_running hs ht]
    split
    · next u hu =>
      split
      · split
        · exact hwaits u _ hs hu
        · exact hdwelt hs
      · exact hdwelt hs
    · split
      · exact hcalls hs
      · exact hdwelt hs
  · rw [Bay.dwellEnds_of_stopped (by
      rw [Classical.not_and_iff_not_or_not, Bool.not_eq_true, Option.isSome_eq_false_iff, Option.isNone_iff_eq_none] at hrun
      exact hrun)]
    exact hstays

theorem Bay.Sound.dwellEnds {b : Bay} (h : b.Sound) (hqueue : ∀ u, b.unit = some u → b.queue ≠ []) (l : LaneId) : (b.dwellEnds l).Sound := by
  refine Bay.dwellEnds_cases l b h (fun u p hs hu => ?_) (fun hs => h.dwelt hs) fun hs => (h.dwelt hs).callArbiter
  have hfit := (h.dwelt hs).whole.toFit
  have honbus := Bay.releaseFor_onBus (σ := True) (fun _ => (h.dwelt hs).whole.lanes) u p
  have hstate := hfit.unit_state (u := u) hu
  exact (honbus.whole trivial hfit hstate (hfit.due_eq_false (u := u) hu)).sound_of_unit (honbus.timeouts ▸ h.timeouts_lt) (honbus.state ▸ hstate) (honbus.queue ▸ hqueue u hu)

theorem Bay.recoveryEnds_cases {P : Bay → Prop} (l : LaneId) (b : Bay) (hstays : P b) (hwaits : ∀ u p, b.unit = some u → P ((b.setLane l Lane.shut).selectFor u p))
    (hshut : P (b.setLane l Lane.shut)) : P (b.recoveryEnds l) := by
  by_cases hrun : b.lanes[l].state = .closing ∧ b.lanes[l].recoveryTimer.isSome = true
  · obtain ⟨hs, ht⟩ := hrun
    rw [Bay.recoveryEnds_of_running hs ht]
    split
    · next u hu =>
      split
      · split
        · exact hwaits u _ hu
        · exact hshut
      · exact hshut
    · exact hshut
  · rw [Bay.recoveryEnds_of_stopped (by
      rw [Classical.not_and_iff_not_or_not, Bool.not_eq_true, Option.isSome_eq_false_iff, Option.isNone_iff_eq_none] at hrun
      exact hrun)]
    exact hstays

theorem Bay.Whole.recoveryEnds {b : Bay} (h : b.Whole) (l : LaneId) : (b.recoveryEnds l).Whole := by
  have hshut := h.withLanes (Bay.setLane_sound h.lanes l Lane.sound_shut)
  refine Bay.recoveryEnds_cases l b h (fun u p hu => ?_) hshut
  exact (Bay.selectFor_onBus (σ := True) (fun _ => hshut.lanes) u p).whole trivial hshut.toFit (hshut.unit_state (u := u) hu) (hshut.due_eq_false (u := u) hu)

namespace Bay.Carries

theorem dwellEnds (b : Bay) (l : LaneId) : b.Carries (b.dwellEnds l) :=
  Bay.dwellEnds_cases l b (refl b) (fun u _ _ hu => ⟨rfl, fun _ hr => ⟨u, hu, by cases hr; rfl⟩, (Nat.le_refl _)⟩) (fun _ => of_eq rfl rfl (Nat.le_refl _)) fun _ => of_eq rfl rfl (Nat.le_refl _)

theorem recoveryEnds (b : Bay) (l : LaneId) : b.Carries (b.recoveryEnds l) :=
  Bay.recoveryEnds_cases l b (refl b) (fun u _ hu => ⟨rfl, fun _ hr => ⟨u, hu, by cases hr; rfl⟩, (Nat.le_refl _)⟩) (of_eq rfl rfl (Nat.le_refl _))

theorem pollTick (b : Bay) : b.Carries b.pollTick := by
  unfold Bay.pollTick
  dsimp only
  split
  · exact (of_eq (b := b) (v := ({ b with pollTimer := some b.pollInterval, owed := b.owed + 1 } : Bay).callArbiter) rfl rfl (Nat.le_refl _)).trans (wakeCheck _)
  · exact (of_eq (b := b) (v := ({ b with pollTimer := some b.pollInterval } : Bay)) rfl rfl (Nat.le_refl _)).trans (wakeCheck _)

end Bay.Carries

/-! ### The poll timer (R124, R125) -/

theorem Bay.Whole.pollTick {b : Bay} (h : b.Whole) (hp : b.pollTimer.isSome = true) : b.pollTick.Whole := by
  obtain ⟨hid, hpoll, htimer, hdepth, hcause, hdrain, hline, hrail⟩ := h.holdings
  have hs : b.state.inService = true := hpoll.symm.trans hp
  have hticked {n : Nat} (hn : n ≤ Config.owedMax) : Bay.Fit { b with pollTimer := some b.pollInterval, owed := n } :=
    ⟨h.outputs, ⟨hid, hs.symm, htimer, hdepth, hcause, hdrain, hline, hrail⟩, hn, fun hn => absurd (hs.symm.trans hn) (by decide), h.exchange, h.forced, h.unit, h.poll,
      h.due, h.lanes⟩
  unfold Bay.pollTick
  dsimp only
  split
  · next hlt => exact (hticked (Nat.succ_le_of_lt hlt)).callArbiter.wakeCheck.1
  · exact (hticked h.owed).wakeCheck.1

/-! ### The exchange in progress (R70, R71, R82) -/

section
variable {b : Bay}

theorem Bay.Whole.endExchange (h : b.Whole) (n : Nat) : (b.endExchange n).Whole :=
  ⟨⟨h.outputs, h.holdings, h.owed, h.outside, nofun, h.forced, h.unit, nofun, fun hd => by
    obtain ⟨hs, -, hu⟩ := h.due hd
    exact ⟨hs, rfl, hu⟩, h.lanes⟩, h.parked⟩

theorem Bay.Whole.payPoll (h : b.Whole) : b.payPoll.Whole := by
  refine ⟨⟨h.outputs, h.holdings, Nat.le_trans (Nat.sub_le _ _) h.owed, fun hs => ?_, h.exchange, h.forced, h.unit, h.poll, h.due, h.lanes⟩, fun hs => ?_⟩
  · obtain ⟨ho, hq⟩ := h.outside hs
    exact ⟨by rw [Bay.payPoll, ho], hq⟩
  · obtain ⟨hq, ho, hd⟩ := h.parked hs
    exact ⟨hq, Nat.lt_of_le_of_lt (Nat.sub_le _ _) ho, hd⟩

theorem Bay.Whole.withStatus (h : b.Whole) (w : StatusWord) : Bay.Whole { b with lastStatus := w } :=
  ⟨⟨h.outputs, h.holdings, h.owed, h.outside, h.exchange, h.forced, h.unit, h.poll, h.due, h.lanes⟩, h.parked⟩

theorem Bay.Whole.startRecovery (h : b.Whole) (l : LaneId) : (b.startRecovery l).Whole := by
  rw [Bay.startRecovery_withLanes]
  exact h.withLanes (Bay.startRecovery_sound h.lanes l)

/-- The arbiter takes its decision point. -/
def Bay.decides (b : Bay) : Bay := { b with forced := b.forcedRun, due := false }

theorem Bay.Whole.decides (h : b.Whole) (hfree : b.BusFree) : b.decides.Whole :=
  ⟨⟨h.outputs, h.holdings, h.owed, h.outside, h.exchange, fun _ => (BayState.arbitrates_iff _).2 hfree.1, h.unit, h.poll, nofun, h.lanes⟩, h.parked⟩

/-- Where no unit is under way and no decision point due, an exchange may be issued. -/
theorem Bay.Whole.issue (h : b.Whole) (hfree : b.BusFree) (hd : b.due = false) (op : ExchangeOp) : (b.issue op).Whole := by
  obtain ⟨hs, -, hu⟩ := hfree
  refine ⟨⟨h.outputs, h.holdings, h.owed, h.outside, fun _ => (BayState.arbitrates_iff _).2 hs, h.forced, h.unit, fun _ _ _ => hu, fun hd' => ?_, h.lanes⟩, h.parked⟩
  have hd'' : b.due = true := hd'
  rw [hd] at hd''
  cases hd''

theorem Bay.Whole.issueRelease (h : b.Whole) (hfree : b.BusFree) (hd : b.due = false) (l : LaneId) : (b.issueRelease l).Whole :=
  Bay.Whole.issue (b := b.setLane l { Lane.shut with state := .closing, page := b.lanes[l].page })
    (h.withLanes (Bay.setLane_sound h.lanes l (Lane.sound_closing b.lanes[l].page none))) hfree hd _

/-- The unit of an entry is begun where the bus is free, in ONLINE or DRAINING. -/
theorem Bay.Whole.beginUnit (h : b.Whole) (hfree : b.BusFree) (hd : b.due = false) (hp : b.state ≠ .parking) (u : UnitRun) : (b.beginUnit u).Whole := by
  obtain ⟨hs, hx, -⟩ := hfree
  exact (Bay.beginUnit_onBus (σ := True) (fun _ => h.lanes) u hx).whole trivial h.toFit (hs.imp_right fun h => h.resolve_left hp) hd

/-- An entry that is no unit's leaves the queue. -/
theorem Bay.Whole.withQueue (h : b.Whole) {q : List EntryId} (hq : b.queue = [] → q = []) : Bay.Whole { b with queue := q } :=
  ⟨h.toFit.withQueue fun hs => hq (h.outside hs).2, fun hs => by
    obtain ⟨he, hrest⟩ := h.parked hs
    exact ⟨hq he, hrest⟩⟩

end

/-! ### The end of service (R118, R119, R121) -/

theorem Bay.clearBus_sound (b : Bay) (l : LaneId) : b.clearBus.lanes[l].Sound := by
  rw [show b.clearBus.lanes[l] = Lane.shut from Vector.getElem_replicate l.isLt]
  exact Lane.sound_shut

theorem Bay.remove_sound (b : Bay) : b.remove.Sound := by
  have henters : Bay.Enters { b.clearBus with drainRequested := false } .empty := Bay.enters_outside b.clearBus_sound rfl rfl rfl rfl rfl nofun
  exact (henters.fit (tm := none) rfl).sound (show 0 < Config.timeoutMax by decide) nofun nofun nofun

theorem Bay.restart_sound (b : Bay) : b.restart.Sound := by
  have henters : Bay.Enters { b.clearBus with drainRequested := false } .held := Bay.enters_outside b.clearBus_sound rfl rfl rfl rfl rfl nofun
  exact (henters.fit (tm := some Config.holdTime) rfl).sound (show 0 < Config.timeoutMax by decide) nofun nofun nofun

/-- A fault in a state with the main rail on ends the rail-good too (R106). -/
theorem Bay.fault_sound {b : Bay} {c : FaultCause} (hc : c ≠ .none) (hmain : b.mainRail = true) : (b.fault c).Sound := by
  have henters : Bay.Enters { b.clearBus with cause := c, drainRequested := false } .faulted :=
    Bay.enters_outside b.clearBus_sound rfl rfl rfl rfl rfl fun _ => ⟨hc, fun _ => hmain⟩
  exact (henters.fit (tm := none) rfl).sound (show 0 < Config.timeoutMax by decide) nofun nofun nofun

/-! ### The life of a module outside service (Chapter 6) -/

section
variable {b : Bay}

/-- From one state out of service into another. -/
theorem Bay.Sound.enter_outside (h : b.Sound) (hs : b.state.inService = false) (st : BayState) (tm : Option Nat) (hst : st.inService = false) (hf : st ≠ .faulted)
    (htm : tm.isSome = st.timed) : Bay.Sound { b.enter st with timer := tm } := by
  have hstates : st ≠ .parked ∧ st ≠ .parking ∧ st ≠ .draining := by
    revert hst
    cases st <;> decide
  obtain ⟨h1, h2, h3⟩ := hstates
  exact ((h.whole.toFit.enters_outside hs hst hf).fit htm).sound h.timeouts_lt h1 h2 h3

theorem Bay.Sound.setContact (h : b.Sound) (c : Contact) (made : Bool) : (b.setContact c made).Sound := by
  cases c <;> exact h

theorem Bay.Sound.enterSeating_sound (h : b.Sound) (hs : b.state = .empty) : b.enterSeating.Sound := h.enter_outside (by rw [hs]; rfl) .seating _ rfl nofun rfl

theorem Bay.Sound.enterHeld (h : b.Sound) (hs : b.state.inService = false) : b.enterHeld.Sound := h.enter_outside hs .held _ rfl nofun rfl

theorem Bay.Sound.enterPowering (h : b.Sound) (hs : b.state.inService = false) : b.enterPowering.Sound := by
  have hpowering : Bay.Sound { b.enter .powering with timer := some Config.railTime } := h.enter_outside hs .powering _ rfl nofun rfl
  unfold Bay.enterPowering
  dsimp only
  split
  · exact hpowering.enterHeld rfl
  · exact hpowering

theorem Bay.Sound.enterIdentifying (h : b.Sound) (hs : b.state.inService = false) : b.enterIdentifying.Sound := h.enter_outside hs .identifying none rfl nofun rfl

theorem Bay.Sound.enterStarting_sound (h : b.Sound) (hs : b.state.inService = false) : b.enterStarting.Sound := by
  have hstarting : Bay.Sound { b.enter .starting with timer := some (b.policy.readyTimeout * 1000) } := h.enter_outside hs .starting _ rfl nofun rfl
  unfold Bay.enterStarting
  dsimp only
  split
  · exact hstarting.enterIdentifying rfl
  · exact hstarting

theorem Bay.Sound.seated (h : b.Sound) (hs : b.state.inService = false) : b.seated.Sound := by
  unfold Bay.seated
  split
  · exact h.enter_outside hs .unpowered none rfl nofun rfl
  · exact h.enterPowering hs

/-- The rail-good input, which FAULTED does not take (R106). -/
theorem Bay.Sound.withRail (h : b.Sound) {r : Bool} (hr : b.state = .faulted → r = false) : Bay.Sound { b with railGood := r } := by
  obtain ⟨hout, ⟨hid, hpoll, htimer, hdepth, hcause, hdrain, hline, -⟩, hrest⟩ := h
  exact ⟨hout, ⟨hid, hpoll, htimer, hdepth, hcause, hdrain, hline, hr⟩, hrest⟩

theorem Bay.Sound.railReport (h : b.Sound) (level : Bool) : (b.railReport level).Sound := by
  have hnoted : Bay.Sound { b with railGood := level && b.state != .faulted } := h.withRail fun hs => by rw [hs]; simp
  unfold Bay.railReport
  dsimp only
  split
  · next hc =>
    have hs : b.state = .powering := eq_of_beq (Bool.and_eq_true_iff.1 hc).2
    exact hnoted.enterHeld (by rw [show _ = b.state from rfl, hs]; rfl)
  · exact hnoted

theorem Bay.Sound.readyReport (h : b.Sound) (level : Bool) : (b.readyReport level).Sound := by
  have hnoted : Bay.Sound { b with moduleReady := level } := h
  unfold Bay.readyReport
  dsimp only
  split
  · next hc =>
    have hs : b.state = .starting := eq_of_beq (Bool.and_eq_true_iff.1 hc).2
    exact hnoted.enterIdentifying (by rw [show _ = b.state from rfl, hs]; rfl)
  · exact hnoted

/-- An accepted identity record takes the bay from IDENTIFYING into service (R112). -/
theorem Bay.Sound.enterOnline_sound (h : b.Sound) (hs : b.state = .identifying) (line : List LineAct) (r : IdentityRecord) :
    ((b.readLine line).enterOnline r).Sound := by
  have hfit := h.whole.toFit
  have hx := hfit.exchange_eq_none (by rw [hs]; rfl)
  have hu := hfit.unit_eq_none (by rw [hs]; decide) (by rw [hs]; decide)
  have henters : Bay.Enters { b with idLine := line, identity := some r, pollTimer := some ({ b.enter .online with identity := some r } : Bay).pollInterval, lanes := closedLanes, owed := 0
                                     timeouts := 0, forced := false, lastStatus := zeroStatus } .online :=
    { lanes := b.clearBus_sound, service := fun _ => ⟨rfl, rfl, Nat.zero_le _⟩, outside := nofun, depth := nofun
      drain := fun hd => by
        have hd' : b.drainRequested = true := hd
        rw [hfit.drainRequested_eq_false (by rw [hs]; rfl)] at hd'
        cases hd'
      fault := nofun
      exchange := fun hh => by rw [show _ = b.exchange from rfl, hx] at hh; cases hh
      unit := fun hh => by rw [show _ = b.unit from rfl, hu] at hh; cases hh
      poll := fun _ _ _ => hu, due := fun _ => ⟨hx, hu⟩ }
  exact ((henters.fit (tm := none) rfl).callArbiter).sound (show 0 < Config.timeoutMax by decide) nofun nofun nofun

end

/-! ### The actions that a bay's engine decides (R114 to R116, R120, R132, R136) -/

section
variable {b v : Bay}

theorem Bay.Whole.withDrain (h : b.Fit) (hs : b.state.hasDepth = true) : Bay.Fit { b with drainRequested := true } := by
  obtain ⟨hid, hpoll, htimer, hdepth, hcause, -, hline, hrail⟩ := h.holdings
  exact ⟨h.outputs, ⟨hid, hpoll, htimer, hdepth, hcause, fun _ => hs, hline, hrail⟩, h.owed, h.outside, h.exchange, h.forced, h.unit, h.poll, h.due, h.lanes⟩

theorem Bay.Sound.actPowerOn (h : b.Sound) (hv : b.actPowerOn = some v) : v.Sound := by
  unfold Bay.actPowerOn at hv
  split at hv
  · next hs => cases hv; exact h.enterPowering (by rw [hs]; rfl)
  iterate 5 · cases hv; exact h
  iterate 3
    · split at hv
      · cases hv
      · cases hv; exact h
  all_goals cases hv

theorem Bay.Sound.actPowerOff (h : b.Sound) (hqueue : ∀ u, b.unit = some u → b.queue ≠ []) (hv : b.actPowerOff = some v) : v.Sound := by
  have hparks (hs : b.state.hasDepth = true) : ({ b with drainRequested := true } : Bay).wakeCheck.settle.Sound := by
    have hdrain := Bay.Whole.withDrain h.whole.toFit hs
    have hcarries := Bay.Carries.wakeCheck { b with drainRequested := true }
    refine Bay.Stands.settle ⟨hdrain.wakeCheck.1, Nat.lt_of_le_of_lt hcarries.timeouts h.timeouts_lt⟩ fun u hu => ?_
    obtain ⟨w, hw, -⟩ := hcarries.unit u hu
    rw [hcarries.queue]
    exact hqueue w hw
  unfold Bay.actPowerOff at hv
  split at hv
  iterate 4 · next hs => cases hv; exact h.enter_outside (by rw [hs]; rfl) .unpowered none rfl nofun rfl
  · next hs =>
    cases hv
    have hfit := h.whole.toFit
    have henters : b.Enters .draining := hfit.enters_service (by rw [hs]; rfl) nofun
      (fun hd => by rw [hfit.drainRequested_eq_false (by rw [hs]; rfl)] at hd; cases hd) nofun rfl (fun _ => rfl) fun _ => .inr rfl
    exact Bay.Stands.settle ⟨((henters.fit (tm := none) rfl).whole nofun).callArbiter, h.timeouts_lt⟩ hqueue
  iterate 3 · next hs => cases hv; exact hparks (by rw [hs]; rfl)
  iterate 4 · cases hv; exact h
  · next hs => cases hv; exact h.enter_outside (by rw [hs]; rfl) .unpowered none rfl nofun rfl

theorem Bay.Sound.withAux (h : b.Sound) (wanted : Bool) : Bay.Sound { b with auxWanted := wanted, auxRail := b.mainRail && wanted } := by
  obtain ⟨⟨hmain, hreset, -⟩, hrest⟩ := h
  exact ⟨⟨hmain, hreset, rfl⟩, hrest⟩

theorem Bay.Sound.actAuxOn (h : b.Sound) (hv : b.actAuxOn = some v) : v.Sound := by
  cases hv
  have haux := h.withAux true
  rw [Bool.and_true] at haux
  exact haux

theorem Bay.Sound.actAuxOff (h : b.Sound) (hv : b.actAuxOff = some v) : v.Sound := by
  cases hv
  have haux := h.withAux false
  rw [Bool.and_false] at haux
  exact haux

theorem Bay.Sound.actRetry (h : b.Sound) (hv : b.actRetry = some v) : v.Sound := by
  unfold Bay.actRetry at hv
  split at hv
  · next hs => cases hv; exact h.enterPowering (by rw [eq_of_beq hs]; rfl)
  · cases hv

/-- An idle ONLINE bay enters PARKING with a depth, its lanes as they are to be left. -/
theorem Bay.Sound.enterParking (h : b.Sound) (hs : b.state = .online) (hqueue : ∀ u, b.unit = some u → b.queue ≠ []) (hq : b.queue = []) (d : Depth) :
    Bay.Fit { b.enter .parking with depth := some d } := by
  have hfit := h.whole.toFit
  have hu : b.unit = none := Option.eq_none_iff_forall_ne_some.2 fun u hu => hqueue u hu hq
  obtain ⟨hid, hpoll, -⟩ := hfit.holdings
  have hserves : b.state.inService = true := by rw [hs]; rfl
  have henters : Bay.Enters { b with depth := some d } .parking :=
    { lanes := hfit.lanes, service := fun _ => ⟨hid.trans hserves, hpoll.trans hserves, hfit.owed⟩, outside := nofun, depth := fun _ => rfl, drain := fun _ => rfl
      fault := nofun, exchange := fun _ => rfl, unit := fun hh => by rw [show _ = b.unit from rfl, hu] at hh; cases hh
      poll := hfit.poll, due := fun hd => (hfit.due hd).2 }
  exact henters.fit (tm := none) rfl

theorem Bay.Sound.actParkLight (h : b.Sound) (hqueue : ∀ u, b.unit = some u → b.queue ≠ []) (hv : b.actParkLight = some v) : v.Sound := by
  unfold Bay.actParkLight at hv
  split at hv
  · next hc =>
    obtain ⟨hs, hq⟩ := Bool.and_eq_true_iff.1 hc
    cases hv
    exact Bay.Stands.settle ⟨((h.enterParking (eq_of_beq hs) hqueue (b.idle_iff.1 hq) .light).whole nofun).callArbiter, h.timeouts_lt⟩ hqueue
  · cases hv

theorem Bay.Sound.actParkDeep (h : b.Sound) (hqueue : ∀ u, b.unit = some u → b.queue ≠ []) (hv : b.actParkDeep = some v) : v.Sound := by
  unfold Bay.actParkDeep at hv
  split at hv
  · next hc =>
    obtain ⟨hs, hq⟩ := Bool.and_eq_true_iff.1 hc
    cases hv
    exact Bay.Stands.settle ⟨(((h.enterParking (eq_of_beq hs) hqueue (b.idle_iff.1 hq) .deep).releaseAll).whole nofun).callArbiter, h.timeouts_lt⟩ hqueue
  · cases hv

theorem Bay.Sound.actWake (h : b.Sound) (hqueue : ∀ u, b.unit = some u → b.queue ≠ []) (hv : b.actWake = some v) : v.Sound := by
  unfold Bay.actWake at hv
  split at hv
  · next hs =>
    cases hv
    have hfit := h.whole.toFit
    have hcarries := Bay.Carries.startWake b
    refine Bay.Stands.settle ⟨(hfit.startWake (by rw [hs]; rfl) (hfit.depth_isSome (by rw [hs]; rfl)) (hfit.exchange_eq_none (by rw [hs]; rfl))
      (hfit.unit_eq_none (by rw [hs]; decide) (by rw [hs]; decide))).1, Nat.lt_of_le_of_lt hcarries.timeouts h.timeouts_lt⟩ fun u hu => ?_
    obtain ⟨w, hw, -⟩ := hcarries.unit u hu
    rw [hcarries.queue]
    exact hqueue w hw
  · cases hv; exact h
  · cases hv; exact h
  all_goals cases hv

/-- Every action that a bay's engine decides keeps the bay sound. -/
theorem Bay.Sound.acted (h : b.Sound) (hqueue : ∀ u, b.unit = some u → b.queue ≠ []) {f : Bay → Option Bay} (hf : f ∈ engineActions) (hv : f b = some v) : v.Sound := by
  simp only [engineActions, List.mem_cons, List.not_mem_nil, or_false] at hf
  rcases hf with rfl | rfl | rfl | rfl | rfl | rfl | rfl | rfl
  · exact h.actPowerOn hv
  · exact h.actPowerOff hqueue hv
  · exact h.actAuxOn hv
  · exact h.actAuxOff hv
  · exact h.actRetry hv
  · exact h.actParkLight hqueue hv
  · exact h.actParkDeep hqueue hv
  · exact h.actWake hqueue hv

end

/-- And it carries the bay's queue and unit on. -/
theorem Bay.Carries.acted {b v : Bay} {f : Bay → Option Bay} (hf : f ∈ engineActions) (hv : f b = some v) : b.Carries v := by
  have hsettled {w : Bay} (hw : b.Carries w) : b.Carries w.settle := hw.trans (Bay.Carries.settle w)
  have henter (st : BayState) : b.Carries (b.enter st) := Bay.Carries.enter b st
  have hpowering : b.Carries b.enterPowering := by
    unfold Bay.enterPowering
    dsimp only
    split <;> exact .of_eq rfl rfl (Nat.le_refl _)
  simp only [engineActions, List.mem_cons, List.not_mem_nil, or_false] at hf
  rcases hf with rfl | rfl | rfl | rfl | rfl | rfl | rfl | rfl
  case inl =>
    unfold Bay.actPowerOn at hv
    split at hv
    · cases hv; exact hpowering
    iterate 5 · cases hv; exact .refl b
    iterate 3
      · split at hv
        · cases hv
        · cases hv; exact .refl b
    all_goals cases hv
  case inr.inl =>
    unfold Bay.actPowerOff at hv
    split at hv
    iterate 4 · cases hv; exact henter .unpowered
    · cases hv; exact hsettled ((henter .draining).trans (.callArbiter _))
    iterate 3 · cases hv; exact hsettled ((Bay.Carries.of_eq (b := b) (v := { b with drainRequested := true }) rfl rfl (Nat.le_refl _)).trans (.wakeCheck _))
    iterate 4 · cases hv; exact .refl b
    · cases hv; exact henter .unpowered
  case inr.inr.inl => cases hv; exact .of_eq rfl rfl (Nat.le_refl _)
  case inr.inr.inr.inl => cases hv; exact .of_eq rfl rfl (Nat.le_refl _)
  case inr.inr.inr.inr.inl =>
    unfold Bay.actRetry at hv
    split at hv
    · cases hv; exact hpowering
    · cases hv
  case inr.inr.inr.inr.inr.inl =>
    unfold Bay.actParkLight at hv
    split at hv
    · cases hv; exact hsettled (.of_eq rfl rfl (Nat.le_refl _))
    · cases hv
  case inr.inr.inr.inr.inr.inr.inl =>
    unfold Bay.actParkDeep at hv
    split at hv
    · cases hv; exact hsettled (.of_eq rfl rfl (Nat.le_refl _))
    · cases hv
  case inr.inr.inr.inr.inr.inr.inr =>
    unfold Bay.actWake at hv
    split at hv
    · cases hv; exact hsettled (.startWake b)
    · cases hv; exact .refl b
    · cases hv; exact .refl b
    all_goals cases hv

end Sys2Proof.Machine

/-! The part in the course of an event (O57 to O59): what still holds, and what the event has yet to do. -/

namespace Sys2Proof.Machine

/-! ### The part in the course of an event -/

/-- The invariants that are asked for beside the agreement of the tracker with the bay queues. -/
structure Asked where
  strict   : Prop
  examined : Prop
  sound    : Prop

/-- What an event has yet to do: the hold lists and the SYNCs to examine, by their domains, the entries it has taken and not yet given a state or ended, how far each bay is sound, whether the response order is to be emptied, and whether responses are still to be made ready; `old` are entries that were listed at an earlier point of the event, and that are still listed or have been freed. -/
structure Open where
  holds    : DomainId → Prop
  syncs    : DomainId → Prop
  out      : EntryId → Prop
  bays     : BayId → Standing
  disorder : Prop
  silent   : Prop
  old      : EntryId → Prop

/-- Nothing is left to do. -/
def Open.nothing : Open := { holds := fun _ => False, syncs := fun _ => False, out := fun _ => False, bays := fun _ => .sound, disorder := False, silent := False, old := fun _ => False }

/-- Bay `b` stands at `st`. -/
def Open.withBay (o : Open) (b : BayId) (st : Standing) : Open := { o with bays := fun c => if c = b then st else o.bays c }

theorem Open.withBay_same (o : Open) (b : BayId) (st : Standing) : (o.withBay b st).bays b = st := if_pos rfl

theorem Open.withBay_other {o : Open} {b c : BayId} (h : c ≠ b) (st : Standing) : (o.withBay b st).bays c = o.bays c := if_neg h

structure State.Work (s : State) (k : Asked) (o : Open) : Prop where
  filed : s.Filed o.out
  obeys : s.tracker.Obeys k.strict k.examined o.holds o.syncs
  answering : ¬ o.disorder → s.tracker.Answering
  bays : k.sound → ∀ b : BayId, s.bays[b].Stands (o.bays b)
  answered : ¬ o.silent → ∀ e ∈ s.tracker.taken, s.tracker.entries[e].state = .done → s.tracker.entries[e].response.isSome = true
  old : ∀ e : EntryId, o.old e → e ∈ s.tracker.taken ∨ s.tracker.entries[e].state = .free

/-! ### The agreement between events -/

theorem State.WorkSound.filed {s : State} (h : s.WorkSound) : s.Filed fun _ => False := by
  obtain ⟨⟨hn, huse, hheld, hwait, hresp, hdone⟩, -, hqueues, hat⟩ := h
  refine ⟨hn, fun b => (hqueues b).1, fun e => ⟨fun he _ => huse e he, fun he hs => ⟨hheld e he hs, not_false⟩, hwait e, hresp e, fun he hs => .inl (hdone e he hs), fun he hs => ?_, fun b => ?_⟩,
    fun b u hu => (hqueues b).2.2 u hu⟩
  · obtain ⟨x, hx, -⟩ := hat e he hs
    rw [hx]
    rfl
  · refine ⟨fun hq => ?_, fun ⟨he, hs, _, t, ht, hb⟩ => ?_⟩
    · obtain ⟨ht, hs, x, hx, hb⟩ := (hqueues b).2.1 e hq
      exact ⟨ht, hs, not_false, x, hx, hb⟩
    · obtain ⟨x, hx, hq⟩ := hat e he hs
      obtain rfl := Option.some.inj (ht.symm.trans hx)
      exact hb ▸ hq

theorem State.WorkSound.answering {s : State} (h : s.WorkSound) : s.tracker.Answering := by
  obtain ⟨-, hanswering, -⟩ := h
  exact hanswering

theorem State.WorkSound.response_of_done {s : State} (h : s.WorkSound) {e : EntryId} (he : e ∈ s.tracker.taken) (hs : s.tracker.entries[e].state = .done) :
    s.tracker.entries[e].response.isSome = true := by
  obtain ⟨⟨-, -, -, -, -, hdone⟩, -⟩ := h
  exact hdone e he hs

theorem State.Filed.workSound {s : State} (h : s.Filed fun _ => False) (ha : s.tracker.Answering)
    (hdone : ∀ e ∈ s.tracker.taken, s.tracker.entries[e].state = .done → s.tracker.entries[e].response.isSome = true) : s.WorkSound := by
  refine ⟨⟨h.taken, fun e he => (h.entry e).inUse he not_false, fun e he hs => ((h.entry e).held he hs).1, fun e => (h.entry e).waiting, fun e => (h.entry e).response, hdone⟩, ha,
    fun b => ⟨h.queues b, fun e he => ?_, h.unit b⟩, fun e he hs => ?_⟩
  · obtain ⟨ht, hs, -, hx⟩ := ((h.entry e).queue b).1 he
    exact ⟨ht, hs, hx⟩
  · obtain ⟨x, hx⟩ := Option.isSome_iff_exists.1 ((h.entry e).placed he hs)
    exact ⟨x, hx, ((h.entry e).queue x.bay).2 ⟨he, hs, not_false, x, hx, rfl⟩⟩

/-- A response made ready changes no entry's state. -/
theorem State.readyIfDone_entry_state (x e : EntryId) (s : State) : (s.readyIfDone x).tracker.entries[e].state = s.tracker.entries[e].state := by
  unfold State.readyIfDone
  split
  · rw [State.readyDone]
    by_cases he : e = x
    · subst he; rw [State.makeReady_same]
    · rw [State.makeReady_other he]
  · rfl

namespace State.Work

variable {s u : State} {k : Asked} {o : Open} {e : EntryId} {b : BayId}

/-! ### Operations on one entry -/

/-- A change of the blocks that `Work` does not read. -/
theorem congr (h : s.Work k o) (ht : u.tracker = s.tracker) (hb : u.bays = s.bays) : u.Work k o where
  filed := by
    obtain ⟨hn, hq, he, hu⟩ := h.filed
    exact ⟨ht ▸ hn, hb ▸ hq, ht ▸ hb ▸ he, ht ▸ hb ▸ hu⟩
  obeys := ht ▸ h.obeys
  answering := ht ▸ h.answering
  bays := hb ▸ h.bays
  answered := ht ▸ h.answered
  old := ht ▸ h.old

/-- More may be left to do. -/
theorem mono (h : s.Work k o) {hs ss : DomainId → Prop} (hh : ∀ d, o.holds d → hs d) (hd : ∀ d, o.syncs d → ss d) : s.Work k { o with holds := hs, syncs := ss } where
  filed := h.filed
  obeys := h.obeys.mono hh hd
  answering := h.answering
  answered := h.answered
  bays := h.bays
  old := h.old

/-- The entries taken from their queues are as the one or the other says, where that matters. -/
theorem out_congr (h : s.Work k o) {X : EntryId → Prop} (hX : ∀ e ∈ s.tracker.taken, s.tracker.entries[e].state ≠ .done → (o.out e ↔ X e)) : s.Work k { o with out := X } where
  filed := h.filed.out_congr hX
  obeys := h.obeys
  answering := h.answering
  answered := h.answered
  bays := h.bays
  old := h.old

/-- The entries listed now are remembered. -/
theorem remember (h : s.Work k o) : s.Work k { o with old := fun e => o.old e ∨ e ∈ s.tracker.taken } where
  filed := h.filed
  obeys := h.obeys
  answering := h.answering
  answered := h.answered
  bays := h.bays
  old e he := he.elim (h.old e) .inl

/-- Responses may be left to be made ready. -/
theorem silenced (h : s.Work k o) : s.Work k { o with silent := True } where
  filed := h.filed
  obeys := h.obeys
  answering := h.answering
  answered hn := absurd trivial hn
  bays := h.bays
  old := h.old

theorem forget (h : s.Work k o) {old : EntryId → Prop} (ho : ∀ e, old e → o.old e) : s.Work k { o with old := old } where
  filed := h.filed
  obeys := h.obeys
  answering := h.answering
  answered := h.answered
  bays := h.bays
  old e he := h.old e (ho e he)

/-- The work of an entry that stands in no queue ends. -/
theorem quits (h : s.Work k o) (hl : o.silent) (he : e ∈ s.tracker.taken) (hq : s.tracker.Quits u.tracker e) (hb : u.bays = s.bays) (hf : u.Filed o.out)
    (hh : o.holds s.tracker.entries[e].domain ∨ s.tracker.entries[e].postedOpen = false ∧ s.tracker.entries[e].state ≠ .held) (hd : o.syncs s.tracker.entries[e].domain) :
    u.Work k o where
  filed := hf
  obeys := h.obeys.ended hq.touched hq.done hh hd
  answering hn := (h.answering hn).quits hq
  answered hn := absurd hl hn
  bays := hb ▸ h.bays
  old x hx := by
    by_cases hxe : x = e
    · subst hxe
      rcases hq.out with ⟨htaken, -⟩ | ⟨-, -, hs⟩
      · rw [htaken]; exact .inl he
      · exact .inr hs
    · rw [hq.touched.mem_iff hxe, hq.touched.others x hxe]
      exact h.old x hx

section
variable (h : s.Work k o) (hl : o.silent) (he : e ∈ s.tracker.taken) (hd : o.syncs s.tracker.entries[e].domain)
include h hl he hd

theorem stopEntry (st : Status) (hq : ∀ b : BayId, e ∉ s.bays[b].queue)
    (hh : o.holds s.tracker.entries[e].domain ∨ s.tracker.entries[e].posted = false ∧ s.tracker.entries[e].state ≠ .held) : (s.stopEntry e st).Work k o :=
  h.quits hl he (s.stopEntry_quits e st) (s.stopEntry_bays e st) (h.filed.stopEntry st hq)
    (hh.imp_right fun ⟨hp, hs⟩ => ⟨Entry.postedOpen_of_not_posted hp, hs⟩) hd

theorem endPosted (st : Status) (hq : ∀ b : BayId, e ∉ s.bays[b].queue) (hh : o.holds s.tracker.entries[e].domain) : (s.endPosted e st).Work k o :=
  h.quits hl he (s.endPosted_quits e st) (s.endPosted_bays e st) (h.filed.endPosted st hq) (.inl hh) hd

theorem goDone (st : Status) (hq : ∀ b : BayId, e ∉ s.bays[b].queue) (hp : s.tracker.entries[e].posted = false)
    (hh : o.holds s.tracker.entries[e].domain ∨ s.tracker.entries[e].state ≠ .held) : (s.goDone e st).Work k o :=
  h.quits hl he (s.goDone_quits e st) rfl (h.filed.mapEntry_done _ hq rfl (.inr hp))
    (hh.imp_right fun hs => ⟨Entry.postedOpen_of_not_posted hp, hs⟩) hd

theorem freeEntry (hq : ∀ b : BayId, e ∉ s.bays[b].queue)
    (hh : o.holds s.tracker.entries[e].domain ∨ s.tracker.entries[e].postedOpen = false ∧ s.tracker.entries[e].state ≠ .held) : (s.freeEntry e).Work k o :=
  h.quits hl he (s.freeEntry_quits e) rfl (h.filed.freeEntry hq) hh hd

theorem syncDone (hs : s.tracker.entries[e].state = .waiting) : (s.syncDone e).Work k o := by
  obtain ⟨-, hp, -⟩ := (h.filed.entry e).waiting he hs
  exact h.quits hl he (s.syncDone_quits e) rfl (h.filed.syncDone he hs) (.inr ⟨Entry.postedOpen_of_not_posted hp, by rw [hs]; decide⟩) hd

end

/-- A change of one entry that counts alike for the rules of order, and leaves its response. -/
theorem alike (h : s.Work k o) (ht : s.tracker.Touched u.tracker e) (htaken : u.tracker.taken = s.tracker.taken) (ho : u.tracker.order = s.tracker.order) (hb : u.bays = s.bays)
    (hf : u.Filed o.out) (ha : s.tracker.entries[e].Alike u.tracker.entries[e]) (hr : u.tracker.entries[e].response.isSome = s.tracker.entries[e].response.isSome) :
    u.Work k o where
  filed := hf
  obeys := (Tracker.Alike.of_touched ht htaken ha).obeys h.obeys
  answering hn := (h.answering hn).touched ht htaken ho hr
  answered hn x hx hs := by
    rw [htaken] at hx
    rw [((Tracker.Alike.of_touched ht htaken ha).entry x).state_iff rfl] at hs
    by_cases hxe : x = e
    · subst hxe
      rw [hr]
      exact h.answered hn x hx hs
    · rw [ht.others x hxe]
      exact h.answered hn x hx hs
  bays := hb ▸ h.bays
  old x hx := by
    rw [htaken, ((Tracker.Alike.of_touched ht htaken ha).entry x).state_iff rfl]
    exact h.old x hx

theorem mapEntry_congr (h : s.Work k o) (f : Entry → Entry) (hs : (f s.tracker.entries[e]).state = s.tracker.entries[e].state)
    (hx : (f s.tracker.entries[e]).xlat = s.tracker.entries[e].xlat) (hk : (f s.tracker.entries[e]).kind = s.tracker.entries[e].kind)
    (hp : (f s.tracker.entries[e]).posted = s.tracker.entries[e].posted) (hr : (f s.tracker.entries[e]).response = s.tracker.entries[e].response)
    (hd : (f s.tracker.entries[e]).domain = s.tracker.entries[e].domain) : (s.mapEntry e f).Work k o :=
  h.alike (s.mapEntry_touched e f) rfl rfl rfl (h.filed.mapEntry_congr f hs hx hk hp hr) (by rw [State.mapEntry_same]; exact ⟨hd, hp, hx, .inl hs⟩)
    (by rw [State.mapEntry_same, hr])

/-- An entry goes from one state at the bay to another. -/
theorem mapEntry_atBay (h : s.Work k o) (hs : s.tracker.entries[e].state.atBay = true) {st : EntryState} (hst : st.atBay = true)
    (hrun : st = .running ∨ ∀ (b : BayId) (r : UnitRun), s.bays[b].unit = some r → r.entry ≠ e) : (s.mapEntry e fun y => { y with state := st }).Work k o :=
  h.alike (s.mapEntry_touched e _) rfl rfl rfl (h.filed.mapEntry_atBay hs hst hrun) (by rw [State.mapEntry_same]; exact ⟨rfl, rfl, rfl, .inr ⟨hst, hs⟩⟩)
    (by rw [State.mapEntry_same])

theorem readyDone (h : s.Work k o) (he : e ∈ s.tracker.taken) (hs : s.tracker.entries[e].state = .done) (hr : s.tracker.entries[e].response = none) : (s.readyDone e).Work k o where
  filed := h.filed.readyDone hs
  obeys := (Tracker.Alike.of_touched (s.makeReady_touched e _) rfl (by rw [State.makeReady_same]; exact ⟨rfl, rfl, rfl, .inl rfl⟩)).obeys h.obeys
  answering hn := (h.answering hn).readied (s.makeReady_touched e _) rfl rfl he hr (by rw [State.readyDone, State.makeReady_same]; rfl)
  answered hn x hx hs' := by
    by_cases hxe : x = e
    · subst hxe
      rw [State.readyDone, State.makeReady_same]
      rfl
    · rw [State.readyDone, State.makeReady_other hxe] at hs' ⊢
      exact h.answered hn x hx hs'
  bays := h.bays
  old x hx := (h.old x hx).imp_right fun hf => by
    rw [State.readyDone, State.makeReady_other fun hxe => by subst hxe; exact absurd (hs.symm.trans hf) (by decide)]
    exact hf

theorem readyIfDone (h : s.Work k o) (he : s.tracker.entries[e].state = .done → e ∈ s.tracker.taken) : (s.readyIfDone e).Work k o := by
  unfold State.readyIfDone
  split
  · next hu =>
    simp only [Entry.unanswered, Bool.and_eq_true, beq_iff_eq, Option.isNone_iff_eq_none] at hu
    exact h.readyDone (he hu.1.1) hu.1.1 hu.2
  · exact h

/-- The responses of entries that are listed, or are not DONE, are made ready. -/
theorem readyThese (h : s.Work k o) {es : List EntryId} (hes : ∀ e ∈ es, s.tracker.entries[e].state = .done → e ∈ s.tracker.taken) : (s.readyThese es).Work k o := by
  induction es generalizing s with
  | nil => exact h
  | cons x xs ih =>
    refine ih (h.readyIfDone (hes x List.mem_cons_self)) fun e he hs => ?_
    rw [State.readyIfDone_tracker_taken]
    refine hes e (List.mem_cons_of_mem x he) ?_
    rw [← hs, State.readyIfDone_entry_state]

/-- Where all entries listed are named, none is left to be answered. -/
theorem readyThese_all (h : s.Work k o) {es : List EntryId} (hes : ∀ e ∈ es, s.tracker.entries[e].state = .done → e ∈ s.tracker.taken) (hall : ∀ e ∈ s.tracker.taken, e ∈ es) :
    (s.readyThese es).Work k { o with silent := False } := by
  have hready := h.readyThese hes
  refine { filed := hready.filed, obeys := hready.obeys, answering := hready.answering, bays := hready.bays, old := hready.old, answered := fun _ e he hs => ?_ }
  rw [State.readyThese_tracker_taken] at he
  cases hu : s.tracker.entries[e].unanswered with
  | true =>
    obtain ⟨n, hn⟩ := State.readyThese_answers (hall e he) hu
    rw [hn]
    rfl
  | false =>
    have hkept := State.readyThese_keeps es s e hu
    rw [hkept] at hs ⊢
    refine ((h.filed.entry e).done he hs).elim id fun hp => ?_
    cases hr : s.tracker.entries[e].response with
    | some r => rfl
    | none => exact absurd hu (by rw [Entry.unanswered, hs, hp, hr]; decide)

theorem readyAll (h : s.Work k o) : s.readyAll.Work k { o with silent := False } := h.readyThese_all (fun _ he _ => he) fun _ => id

/-! ### Operations on one bay -/

theorem mapBay (h : s.Work k o) (f : Bay → Bay) (st : Standing) (hq : (f s.bays[b]).queue = s.bays[b].queue)
    (hu : ∀ r, (f s.bays[b]).unit = some r → r.entry ∈ s.bays[b].queue ∧ s.tracker.entries[r.entry].state = .running) (hst : k.sound → (f s.bays[b]).Stands st) :
    (s.mapBay b f).Work k (o.withBay b st) where
  filed := h.filed.mapBay f hq hu
  obeys := h.obeys
  answering := h.answering
  answered := h.answered
  old := h.old
  bays hk c := by
    by_cases hc : c = b
    · subst hc
      rw [State.mapBay_same, Open.withBay_same]
      exact hst hk
    · rw [State.mapBay_other hc, Open.withBay_other hc]
      exact h.bays hk c

theorem mapBay_carries (h : s.Work k o) {f : Bay → Bay} (st : Standing) (hf : s.bays[b].Carries (f s.bays[b])) (hst : k.sound → (f s.bays[b]).Stands st) :
    (s.mapBay b f).Work k (o.withBay b st) :=
  h.mapBay f st hf.queue (fun r hr => by
    obtain ⟨w, hw, hwe⟩ := hf.unit r hr
    simp only [← hwe]
    exact h.filed.unit b w hw) hst

/-- The unit of a bay has work in its queue. -/
theorem queue_ne_nil (h : s.Work k o) (b : BayId) (r : UnitRun) (hr : s.bays[b].unit = some r) : s.bays[b].queue ≠ [] :=
  List.ne_nil_of_mem (h.filed.unit b r hr).1

/-- The end of an event at its bay. -/
theorem settle (h : s.Work k o) (hb : o.bays b = .going) : (s.settle b).Work k (o.withBay b .sound) :=
  h.mapBay_carries .sound (Bay.Carries.settle _) fun hk => by
    have hgoing := h.bays hk b
    rw [hb] at hgoing
    exact hgoing.settle (h.queue_ne_nil b)

theorem clear (h : s.Work k o) (f : Bay → Bay) (hq : (f s.bays[b]).queue = []) (hu : (f s.bays[b]).unit = none) (hs : k.sound → (f s.bays[b]).Sound) :
    (s.mapBay b f).Work k { o.withBay b .sound with out := fun x => o.out x ∨ x ∈ s.bays[b].queue } where
  filed := h.filed.clear f hq hu
  obeys := h.obeys
  answering := h.answering
  answered := h.answered
  old := h.old
  bays hk c := by
    by_cases hc : c = b
    · subst hc
      rw [State.mapBay_same]
      exact (Open.withBay_same o c .sound).symm ▸ hs hk
    · rw [State.mapBay_other hc]
      exact (Open.withBay_other (o := o) hc .sound).symm ▸ h.bays hk c

theorem dequeue (h : s.Work k o) (he : e ∈ s.bays[b].queue) (hu : ∀ r, s.bays[b].unit = some r → r.entry ≠ e) (hb : o.bays b = .going ∨ o.bays b = .late) :
    (s.dequeue b e).Work k { o with out := fun x => o.out x ∨ x = e } where
  filed := h.filed.dequeue he hu
  obeys := h.obeys
  answering := h.answering
  answered := h.answered
  old := h.old
  bays hk c := by
    have hc := h.bays hk c
    rw [State.dequeue, State.mapBay_get]
    split
    · next hcb =>
      subst hcb
      rcases hb with hb | hb <;> rw [show ({ o with out := fun x => o.out x ∨ x = e } : Open).bays c = o.bays c from rfl, hb] <;> rw [hb] at hc
      · exact ⟨hc.1.withQueue fun hq => by rw [hq]; rfl, hc.2⟩
      · exact ⟨hc.1.withQueue fun hq => by rw [hq]; rfl, hc.2⟩
    · exact hc

/-- A HELD entry that no rule stops joins the queue of its bay. -/
theorem place (h : s.Work k o) (he : e ∈ s.tracker.taken) (hs : s.tracker.entries[e].state = .held) {x : Translation} (hx : s.tracker.entries[e].xlat = some x)
    (hfree : s.tracker.strictHold e x = false) (hd : o.holds s.tracker.entries[e].domain) (htakes : s.bays[x.bay].takesRequests = true) :
    (s.place e x.bay).Work k o where
  filed := h.filed.place he hs hx
  obeys := h.obeys.placed (s.mapEntry_touched e fun y => { y with state := .queued }) rfl (State.mapEntry_same e (fun y => { y with state := .queued }) s) hs hx hfree hd
  answering hn := (h.answering hn).touched (s.mapEntry_touched e fun y => { y with state := .queued }) rfl rfl (by
    show (s.mapEntry e fun y => { y with state := .queued }).tracker.entries[e].response.isSome = _
    rw [State.mapEntry_same])
  answered hn x hx hs' := by
    have hs'' : (s.mapEntry e fun y => { y with state := .queued }).tracker.entries[x].state = .done := hs'
    show (s.mapEntry e fun y => { y with state := .queued }).tracker.entries[x].response.isSome = true
    by_cases hxe : x = e
    · subst hxe
      rw [State.mapEntry_same] at hs''
      cases hs''
    · rw [State.mapEntry_other hxe] at hs'' ⊢
      exact h.answered hn x hx hs''
  old x hx := (h.old x hx).imp_right fun hf => by
    show (s.mapEntry e fun y => { y with state := .queued }).tracker.entries[x].state = _
    rw [State.mapEntry_other fun hxe => by subst hxe; exact absurd (hs.symm.trans hf) (by decide)]
    exact hf
  bays hk c := by
    have hc := h.bays hk c
    rw [State.place, State.mapBay_get]
    split
    · next hcb => subst hcb; exact hc.enqueue htakes e
    · exact hc

end State.Work

end Sys2Proof.Machine

/-! What the examinations, the end of an entry and an abort keep, and what they have done at their end (R53 to R58, R62). -/

namespace Sys2Proof.Machine

/-! ### The examination of the hold lists (R53, R54) -/

/-- One step of the examination of the hold lists of `ds`. -/
def State.holdStep (ds : List DomainId) (s : State) (e : EntryId) : State := if ds.contains s.tracker.entries[e].domain then s.releaseIfReady e else s

theorem State.examineHolds_eq (ds : List DomainId) (s : State) : s.examineHolds ds = s.tracker.taken.foldl (State.holdStep ds) s := rfl

/-- Entry `e` is the oldest of its hold list, in a domain of `ds`, and no rule stops it. -/
structure State.Releases (s : State) (ds : List DomainId) (e : EntryId) (x : Translation) : Prop where
  asked : s.tracker.entries[e].domain ∈ ds
  held : s.tracker.entries[e].state = .held
  xlat : s.tracker.entries[e].xlat = some x
  first : s.tracker.earlierHeld e x.bay = false
  free : s.tracker.strictHold e x = false

/-- The four things that a step can do. -/
theorem State.holdStep_cases {P : State → Prop} {ds : List DomainId} {s : State} {e : EntryId} (hstays : (∀ x, ¬ s.Releases ds e x) → P s)
    (hplaced : ∀ x, s.Releases ds e x → s.tracker.entries[e].stale = false → s.bays[x.bay].takesRequests = true → P (s.place e x.bay))
    (hposted : ∀ x, s.Releases ds e x → (s.tracker.entries[e].stale = true ∨ s.bays[x.bay].takesRequests = false) → s.tracker.entries[e].posted = true → P (s.endPosted e .bayNotReady))
    (hfailed : ∀ x, s.Releases ds e x → (s.tracker.entries[e].stale = true ∨ s.bays[x.bay].takesRequests = false) → s.tracker.entries[e].posted = false → P (s.goDone e .bayNotReady)) :
    P (s.holdStep ds e) := by
  unfold State.holdStep State.releaseIfReady
  by_cases hd : s.tracker.entries[e].domain ∈ ds
  · rw [if_pos (List.contains_iff_mem.2 hd)]
    split
    · next x hx =>
      split
      · next hc =>
        simp only [Bool.and_eq_true, Bool.not_eq_true', beq_iff_eq] at hc
        obtain ⟨⟨hs, hfirst⟩, hfree⟩ := hc
        have hr : s.Releases ds e x := ⟨hd, hs, hx, hfirst, hfree⟩
        unfold State.release
        split
        · next ht =>
          rw [Bool.and_eq_true, Bool.not_eq_true'] at ht
          exact hplaced x hr ht.1 ht.2
        · next ht =>
          have hnot : s.tracker.entries[e].stale = true ∨ s.bays[x.bay].takesRequests = false := by
            rw [Bool.and_eq_true, Bool.not_eq_true', Decidable.not_and_iff_or_not, Bool.not_eq_false, Bool.not_eq_true] at ht
            exact ht
          split
          · next hp => exact hposted x hr hnot hp
          · next hp => exact hfailed x hr hnot (Bool.not_eq_true _ ▸ hp)
      · next hc =>
        refine hstays fun y hr => hc ?_
        obtain rfl := Option.some.inj (hx.symm.trans hr.xlat)
        simp only [Bool.and_eq_true, Bool.not_eq_true', beq_iff_eq]
        exact ⟨⟨hr.held, hr.first⟩, hr.free⟩
    · next hx => exact hstays fun y hr => nomatch hx.symm.trans hr.xlat
  · rw [if_neg (mt List.contains_iff_mem.1 hd)]
    exact hstays fun y hr => hd hr.asked

theorem State.place_touched (e : EntryId) (b : BayId) (s : State) : s.tracker.Touched (s.place e b).tracker e := s.mapEntry_touched e fun y => { y with state := .queued }

theorem State.place_same (e : EntryId) (b : BayId) (s : State) : (s.place e b).tracker.entries[e] = { s.tracker.entries[e] with state := .queued } :=
  State.mapEntry_same e (fun y => { y with state := .queued }) s

theorem Tracker.Touched.refl (t : Tracker) (e : EntryId) : t.Touched t e := ⟨fun _ _ => rfl, .inl rfl⟩

theorem State.holdStep_touched (ds : List DomainId) (s : State) (e : EntryId) : s.tracker.Touched (s.holdStep ds e).tracker e :=
  State.holdStep_cases (P := fun v => s.tracker.Touched v.tracker e) (fun _ => .refl _ e) (fun x _ _ _ => s.place_touched e x.bay) (fun _ _ _ _ => s.endPosted_touched e _)
    fun _ _ _ _ => s.goDone_touched e _

/-- Where `e` is the oldest of its hold list, a rule stops it. -/
def Tracker.StoppedAt (ds : List DomainId) (t : Tracker) (e : EntryId) : Prop :=
  t.entries[e].state = .held → t.entries[e].domain ∈ ds → ∀ x, t.entries[e].xlat = some x → t.earlierHeld e x.bay = false → t.strictHold e x = true

theorem Tracker.earlierPosted_congr {t u : Tracker} {x : EntryId} (hx : u.entries[x] = t.entries[x]) (hb : ∀ z, z ∈ u.before x ↔ z ∈ t.before x)
    (he : ∀ z ∈ t.before x, u.entries[z] = t.entries[z]) : u.earlierPosted x = t.earlierPosted x := by
  rw [Bool.eq_iff_iff, Tracker.earlierPosted_iff, Tracker.earlierPosted_iff, hx]
  refine exists_congr fun z => ?_
  rw [hb]
  exact and_congr_right fun hz => by rw [he z hz]

theorem Tracker.earlierHeld_congr {t u : Tracker} {x : EntryId} (hx : u.entries[x] = t.entries[x]) (hb : ∀ z, z ∈ u.before x ↔ z ∈ t.before x)
    (he : ∀ z ∈ t.before x, u.entries[z] = t.entries[z]) (b : BayId) : u.earlierHeld x b = t.earlierHeld x b := by
  rw [Bool.eq_iff_iff, Tracker.earlierHeld_iff, Tracker.earlierHeld_iff, hx]
  refine exists_congr fun z => ?_
  rw [hb]
  exact and_congr_right fun hz => by rw [he z hz]

theorem Tracker.stoppedAt_local (ds : List DomainId) : Tracker.LocalTo (Tracker.StoppedAt ds) := fun t u x hx hb he hc hs hd y hy hfirst => by
  rw [hx] at hs hd hy
  rw [Tracker.earlierHeld_congr hx hb he] at hfirst
  have hstrict := hc hs hd y hy hfirst
  rw [Tracker.strictHold_iff] at hstrict ⊢
  rw [Tracker.earlierPosted_congr hx hb he, hx]
  exact hstrict

/-- What a step leaves of its own entry. -/
theorem State.holdStep_stoppedAt (ds : List DomainId) (s : State) (e : EntryId) : (s.holdStep ds e).tracker.StoppedAt ds e := by
  have hdone {u : State} (hq : s.tracker.Quits u.tracker e) : u.tracker.StoppedAt ds e := fun hs => by
    rcases hq.out with ⟨-, -, hd, -⟩ | ⟨-, -, hf⟩
    · rw [hd] at hs; cases hs
    · rw [hf] at hs; cases hs
  refine State.holdStep_cases (P := fun v => v.tracker.StoppedAt ds e) (fun hno hs hd x hx hfirst => ?_) (fun x _ _ _ hs => ?_) (fun _ _ _ _ => hdone (s.endPosted_quits e _))
    fun _ _ _ _ => hdone (s.goDone_quits e _)
  · refine Decidable.byContradiction fun hn => ?_
    exact hno x ⟨hd, hs, hx, hfirst, Bool.not_eq_true _ ▸ hn⟩
  · rw [State.place_same] at hs; cases hs

/-! ### The examination of the SYNCs (R56) -/

theorem State.syncStep_touched (ds : List DomainId) (s : State) (e : EntryId) : s.tracker.Touched (s.syncStep ds e).tracker e := by
  unfold State.syncStep
  split
  · exact s.syncDone_touched e
  · exact .refl _ e

/-- Where `e` is a SYNC that waits, it waits for an entry of its domain. -/
def Tracker.WaitsAt (ds : List DomainId) (t : Tracker) (e : EntryId) : Prop :=
  t.entries[e].state = .waiting → t.entries[e].domain ∈ ds → ∃ z ∈ t.before e, t.entries[z].domain = t.entries[e].domain ∧ t.entries[z].state ≠ .done

theorem Tracker.waitsAt_local (ds : List DomainId) : Tracker.LocalTo (Tracker.WaitsAt ds) := fun t u x hx hb he hc hs hd => by
  rw [hx] at hs hd ⊢
  obtain ⟨z, hz, hrest⟩ := hc hs hd
  exact ⟨z, (hb z).2 hz, by rw [he z hz]; exact hrest⟩

theorem State.syncStep_waitsAt (ds : List DomainId) (s : State) (e : EntryId) : (s.syncStep ds e).tracker.WaitsAt ds e := by
  unfold State.syncStep
  split
  · intro hs
    rw [State.syncDone_same] at hs
    cases hs
  · next hc =>
    intro hs hd
    rw [State.syncStep_due_iff, Tracker.earlierDone_iff] at hc
    refine Classical.byContradiction fun hn => hc ⟨hd, hs, fun z hz hzd => ?_⟩
    exact Classical.byContradiction fun hzs => hn ⟨z, hz, hzd, hzs⟩

/-! ### What the examinations have examined -/

section
variable {t : Tracker} {σ ε : Prop} {hs ss : DomainId → Prop} {ds : List DomainId}

theorem Tracker.Obeys.holds_examined (h : t.Obeys σ ε hs ss) (hstopped : ∀ e ∈ t.taken, t.StoppedAt ds e) : t.Obeys σ ε (fun d => hs d ∧ d ∉ ds) ss where
  strict := h.strict
  syncs := h.syncs
  holds hε d hd := by
    by_cases hds : d ∈ ds
    · intro e he hs hdom x hx hfirst
      exact Tracker.strictHold_iff.1 (hstopped e he hs (hdom ▸ hds) x hx hfirst)
    · exact h.holds hε d fun hh => hd ⟨hh, hds⟩

theorem Tracker.Obeys.syncs_examined (h : t.Obeys σ ε hs ss) (hwaits : ∀ e ∈ t.taken, t.WaitsAt ds e) : t.Obeys σ ε hs fun d => ss d ∧ d ∉ ds where
  strict := h.strict
  holds := h.holds
  syncs hε d hd := by
    by_cases hds : d ∈ ds
    · intro e he hs hdom
      obtain ⟨z, hz, hzd, hzs⟩ := hwaits e he hs (hdom ▸ hds)
      exact ⟨z, hz, hzd.trans hdom, hzs⟩
    · exact h.syncs hε d fun hh => hd ⟨hh, hds⟩

end

/-! ### What the examinations keep -/

namespace State.Work

variable {s u : State} {k : Asked} {o : Open} {e : EntryId} {b : BayId}

theorem holdStep (h : s.Work k o) (hl : o.silent) {ds : List DomainId} (hh : ∀ d ∈ ds, o.holds d) (hd : ∀ d ∈ ds, o.syncs d) (he : e ∈ s.tracker.taken) : (s.holdStep ds e).Work k o := by
  have hqueue {x : Translation} (hr : s.Releases ds e x) (b : BayId) : e ∉ s.bays[b].queue := (h.filed.entry e).not_queued (by rw [hr.held]; rfl) b
  refine State.holdStep_cases (P := fun v => v.Work k o) (fun _ => h) (fun x hr _ ht => ?_) (fun x hr _ _ => ?_) fun x hr _ hp => ?_
  · exact h.place he hr.held hr.xlat hr.free (hh _ hr.asked) ht
  · exact h.endPosted hl he (hd _ hr.asked) _ (hqueue hr) (hh _ hr.asked)
  · exact h.goDone hl he (hd _ hr.asked) _ (hqueue hr) hp (.inl (hh _ hr.asked))

/-- The hold lists of the domains concerned have been examined. -/
theorem examineHolds (h : s.Work k o) (hl : o.silent) {ds : List DomainId} (hh : ∀ d, o.holds d → d ∈ ds) (hd : ∀ d ∈ ds, o.syncs d) :
    (s.examineHolds ds).Work k { o with holds := fun _ => False } := by
  have hwork : s.Work k { o with holds := fun d => d ∈ ds } := h.mono hh fun _ => id
  obtain ⟨hend, hstopped⟩ := State.foldl_pass (K := fun v => v.Work k { o with holds := fun d => d ∈ ds }) (C := Tracker.StoppedAt ds) (step := State.holdStep ds) h.filed.taken hwork
    (Tracker.stoppedAt_local ds) (State.holdStep_touched ds) (fun v e hv he => hv.holdStep hl (fun _ => id) hd he) fun v e _ _ => v.holdStep_stoppedAt ds e
  rw [State.examineHolds_eq]
  exact { filed := hend.filed, answering := hend.answering, answered := hend.answered, bays := hend.bays, old := hend.old
          obeys := (hend.obeys.holds_examined hstopped).mono (fun d hd => hd.2 hd.1) fun _ => id }

theorem syncStep (h : s.Work k o) (hl : o.silent) {ds : List DomainId} (hd : ∀ d ∈ ds, o.syncs d) (he : e ∈ s.tracker.taken) : (s.syncStep ds e).Work k o := by
  unfold State.syncStep
  split
  · next hc =>
    obtain ⟨hdom, hs, -⟩ := (s.syncStep_due_iff ds e).1 hc
    exact h.syncDone hl he (hd _ hdom) hs
  · exact h

/-- The SYNCs of the domains concerned have been examined. -/
theorem examineSyncs (h : s.Work k o) (hl : o.silent) {ds : List DomainId} (hd : ∀ d, o.syncs d → d ∈ ds) : (s.examineSyncs ds).Work k { o with syncs := fun _ => False } := by
  have hwork : s.Work k { o with syncs := fun d => d ∈ ds } := h.mono (fun _ => id) hd
  obtain ⟨hend, hwaits⟩ := State.foldl_pass (K := fun v => v.Work k { o with syncs := fun d => d ∈ ds }) (C := Tracker.WaitsAt ds) (step := State.syncStep ds) h.filed.taken hwork
    (Tracker.waitsAt_local ds) (State.syncStep_touched ds) (fun v e hv he => hv.syncStep hl (fun _ => id) he) fun v e _ _ => v.syncStep_waitsAt ds e
  rw [State.examineSyncs_eq]
  exact { filed := hend.filed, answering := hend.answering, answered := hend.answered, bays := hend.bays, old := hend.old
          obeys := (hend.obeys.syncs_examined hwaits).mono (fun _ => id) fun d hd => hd.2 hd.1 }

/-- The examinations of all that an event leaves to be examined. -/
theorem letGo (h : s.Work k o) (hl : o.silent) {hs ss : List DomainId} (hh : ∀ d, o.holds d → d ∈ hs) (hd : ∀ d, o.syncs d → d ∈ ss) (hsub : ∀ d ∈ hs, d ∈ ss) :
    (s.letGo hs ss).Work k { o with holds := fun _ => False, syncs := fun _ => False } :=
  ((h.mono (ss := fun d => d ∈ ss) (fun _ => id) hd).examineHolds hl hh hsub).examineSyncs hl fun _ => id

theorem examine (h : s.Work k o) (hl : o.silent) {hs ss : List DomainId} (hh : ∀ d, o.holds d → d ∈ hs) (hd : ∀ d, o.syncs d → d ∈ ss) (hsub : ∀ d ∈ hs, d ∈ ss) :
    (s.examine hs ss).Work k { o with holds := fun _ => False, syncs := fun _ => False, silent := False } := (h.letGo hl hh hd hsub).readyAll

/-- With nothing left to examine before, nothing is left. -/
theorem of_none (h : s.Work k { o with holds := fun _ => False, syncs := fun _ => False, silent := False }) : s.Work k o where
  filed := h.filed
  obeys := h.obeys.mono (fun _ => False.elim) fun _ => False.elim
  answering := h.answering
  answered _ := h.answered not_false
  bays := h.bays
  old := h.old

/-! ### The end of an entry in its queue (R58) -/

theorem endEntry (h : s.Work k o) (hh : ∀ d, ¬ o.holds d) (hd : ∀ d, ¬ o.syncs d) (he : e ∈ s.bays[b].queue) (hu : ∀ r, s.bays[b].unit = some r → r.entry ≠ e)
    (hb : o.bays b = .going ∨ o.bays b = .late) (st : Status) : (s.endEntry b e st).Work k o := by
  have htaken : e ∈ s.tracker.taken := h.filed.mem_taken he
  have hat : s.tracker.entries[e].state.atBay = true := h.filed.atBay he
  have hheld : s.tracker.entries[e].state ≠ .held := fun hs => by rw [hs] at hat; cases hat
  let holds : List DomainId := if s.tracker.entries[e].posted then [s.tracker.entries[e].domain] else []
  have hsub (d : DomainId) (hm : d ∈ holds) : d ∈ [s.tracker.entries[e].domain] := by
    simp only [holds] at hm
    split at hm
    · exact hm
    · cases hm
  have hout := (h.dequeue he hu hb).silenced.mono (hs := fun d => d ∈ holds) (ss := fun d => d ∈ [s.tracker.entries[e].domain]) (fun d hd => absurd hd (hh d)) fun d hd' => absurd hd' (hd d)
  have hstopped := hout.stopEntry (e := e) trivial htaken (List.mem_singleton.2 rfl) st (fun c hc => ?_) ?_
  · have hdone : ∀ x ∈ ((s.dequeue b e).stopEntry e st).tracker.taken, ((s.dequeue b e).stopEntry e st).tracker.entries[x].state ≠ .done → (o.out x ∨ x = e ↔ o.out x) :=
      fun x hx hs => or_iff_left fun hxe => hs (by subst hxe; exact ((s.dequeue b x).stopEntry_quits x st).done hx)
    have hready : ((s.dequeue b e).stopEntry e st).tracker.entries[e].state = .done → e ∈ ((s.dequeue b e).stopEntry e st).tracker.taken := fun hs => by
      rcases ((s.dequeue b e).stopEntry_quits e st).out with ⟨ht, -⟩ | ⟨-, -, hf⟩
      · rw [ht]; exact htaken
      · exact absurd (hs.symm.trans hf) (by decide)
    exact of_none (o := o)
      (((hstopped.out_congr hdone).readyIfDone hready).examine trivial (hs := holds) (ss := [s.tracker.entries[e].domain]) (fun _ => id) (fun _ => id) hsub)
  · exact hout.filed.not_out hc (.inr rfl)
  · cases hp : s.tracker.entries[e].posted with
    | true => exact .inl (by simp only [holds, hp, if_true]; exact List.mem_singleton.2 rfl)
    | false => exact .inr ⟨hp, hheld⟩

/-! ### An abort (R55, R62) -/

theorem markStale (h : s.Work k o) (b : BayId) : (s.markStale b).Work k o := by
  refine foldl_kept (P := fun v : State => v.Work k o) (fun v e hv => ?_) _ s h
  split
  · exact hv.mapEntry_congr (fun y => { y with stale := true }) rfl rfl rfl rfl rfl rfl
  · exact hv

/-- The entries of a queue that the event has emptied end one after the other. -/
theorem stopAll (h : s.Work k o) (hl : o.silent) {q : List EntryId} (hn : q.Nodup) (hq : ∀ e ∈ q, e ∈ s.tracker.taken ∧ s.tracker.entries[e].state.atBay = true ∧ o.out e)
    (hd : ∀ e ∈ q, o.syncs s.tracker.entries[e].domain) (hh : ∀ e ∈ q, s.tracker.entries[e].posted = true → o.holds s.tracker.entries[e].domain) (st : Status) :
    (q.foldl (fun s e => s.stopEntry e st) s).Work k { o with out := fun x => o.out x ∧ x ∉ q } := by
  have hall := foldl_passes (f := fun (v : State) (e : EntryId) => v.stopEntry e st) (P := fun passed v => v.Work k o
      ∧ (∀ x ∈ q, x ∉ passed → v.tracker.entries[x] = s.tracker.entries[x] ∧ x ∈ v.tracker.taken)
      ∧ ∀ x ∈ passed, x ∈ v.tracker.taken → v.tracker.entries[x].state = .done) q (s := s)
    ⟨h, fun x hx _ => ⟨rfl, (hq x hx).1⟩, fun x hx => nomatch hx⟩ ?_
  · obtain ⟨hend, -, hdone⟩ := hall
    exact hend.out_congr fun x hx hs => ⟨fun ho => ⟨ho, fun hm => hs (hdone x hm hx)⟩, And.left⟩
  rintro passed e rest v rfl ⟨hv, hrest, hdone⟩
  have hmem : e ∈ passed ++ e :: rest := List.mem_append_right _ List.mem_cons_self
  have hnot : e ∉ passed := fun hm => (List.nodup_append.1 hn).2.2 e hm e List.mem_cons_self rfl
  obtain ⟨hsame, htaken⟩ := hrest e hmem hnot
  obtain ⟨-, hat, hout⟩ := hq e hmem
  have hheld : v.tracker.entries[e].state ≠ .held := fun hs => by rw [hsame] at hs; rw [hs] at hat; cases hat
  have hquits := v.stopEntry_quits e st
  refine ⟨hv.stopEntry hl htaken (by rw [hsame]; exact hd e hmem) st (fun c hc => ?_) ?_, fun x hx hxn => ?_, fun x hx hxt => ?_⟩
  · exact hv.filed.not_out hc hout
  · rw [hsame]
    cases hp : s.tracker.entries[e].posted with
    | true => exact .inl (hh e hmem hp)
    | false => exact .inr ⟨rfl, hsame ▸ hheld⟩
  · rw [List.mem_append, List.mem_singleton, not_or] at hxn
    obtain ⟨hx1, hx2⟩ := hrest x hx hxn.1
    exact ⟨(hquits.touched.others x hxn.2).trans hx1, (hquits.touched.mem_iff hxn.2).2 hx2⟩
  · rcases List.mem_append.1 hx with hx | hx
    · by_cases hxe : x = e
      · subst hxe; exact hquits.done hxt
      · rw [hquits.touched.others x hxe]
        exact hdone x hx ((hquits.touched.mem_iff hxe).1 hxt)
    · obtain rfl := List.mem_singleton.1 hx
      exact hquits.done hxt

end State.Work

/-- The order of an abort names entries that were listed, or of the queue, and all that were listed. -/
theorem Tracker.mem_abortOrder {t : Tracker} {q : List EntryId} {e : EntryId} (h : e ∈ t.abortOrder q) : e ∈ q ∨ e ∈ t.taken := by
  let answered := q.filter fun e => !t.entries[e].posted && !t.entries[e].discard
  by_cases ha : e ∈ answered
  · exact .inl (List.mem_filter.1 ha).1
  · have hm : e ∈ (t.abortOrder q).filter fun x => !answered.contains x := List.mem_filter.2 ⟨h, by simpa using ha⟩
    rw [Tracker.abortOrder, bringing_filter_out t.taken fun _ => id] at hm
    exact .inr (List.mem_filter.1 hm).1

theorem Tracker.mem_abortOrder_of_taken {t : Tracker} {e : EntryId} (q : List EntryId) (h : e ∈ t.taken) : e ∈ t.abortOrder q := by
  let answered := q.filter fun e => !t.entries[e].posted && !t.entries[e].discard
  by_cases ha : e ∈ answered
  · have hm : e ∈ (t.abortOrder q).filter answered.contains := by
      rw [Tracker.abortOrder, bringing_filter_in t.taken fun _ => id]
      exact ha
    exact (List.mem_filter.1 hm).1
  · have hm : e ∈ (t.abortOrder q).filter fun x => !answered.contains x := by
      rw [Tracker.abortOrder, bringing_filter_out t.taken fun _ => id]
      exact List.mem_filter.2 ⟨h, by simpa using ha⟩
    exact (List.mem_filter.1 hm).1

/-- Steps that each reach one entry list no new one. -/
theorem State.foldl_taken_subset {step : State → EntryId → State} (htouch : ∀ (v : State) (e : EntryId), v.tracker.Touched (step v e).tracker e) (es : List EntryId) (s : State)
    {x : EntryId} (hx : x ∈ (es.foldl step s).tracker.taken) : x ∈ s.tracker.taken :=
  foldl_kept (P := fun v : State => x ∈ v.tracker.taken → x ∈ s.tracker.taken) (fun v e hv hm => hv ((htouch v e).mem_of_mem hm)) es s id hx

theorem State.markStale_touched (b : BayId) (v : State) (e : EntryId) :
    v.tracker.Touched (if v.tracker.entries[e].state == .held && v.tracker.entries[e].xlat.any (·.bay == b) then v.mapEntry e fun y => { y with stale := true } else v).tracker e := by
  split
  · exact v.mapEntry_touched e _
  · exact .refl _ e

theorem State.letGo_taken_subset (hs ss : List DomainId) (s : State) {x : EntryId} (hx : x ∈ (s.letGo hs ss).tracker.taken) : x ∈ s.tracker.taken :=
  State.foldl_taken_subset (State.holdStep_touched hs) _ s (State.foldl_taken_subset (State.syncStep_touched ss) _ _ hx)

namespace State.Work

variable {s u : State} {k : Asked} {o : Open} {e : EntryId} {b : BayId}

/-- An abort leaves nothing to examine; its bay is sound where what clears it makes it so. -/
theorem abortBay (h : s.Work k o) (hh : ∀ d, ¬ o.holds d) (hd : ∀ d, ¬ o.syncs d) {f : Bay → Bay} (hq : (f s.bays[b]).queue = []) (hu : (f s.bays[b]).unit = none)
    (hs : k.sound → (f s.bays[b]).Sound) (st : Status) : (s.abortBay b f st).Work k (o.withBay b .sound) := by
  let q := s.bays[b].queue
  let domains := q.map fun e => s.tracker.entries[e].domain
  let posters := (q.filter fun e => s.tracker.entries[e].posted).map fun e => s.tracker.entries[e].domain
  have hmem (e : EntryId) (he : e ∈ q) : e ∈ s.tracker.taken ∧ s.tracker.entries[e].state.atBay = true := ⟨h.filed.mem_taken he, h.filed.atBay he⟩
  have hcleared := ((h.clear f hq hu hs).remember.silenced).mono (hs := fun d => d ∈ posters) (ss := fun d => d ∈ domains) (fun d hd => absurd hd (hh d)) fun d hd' => absurd hd' (hd d)
  have hstopped := hcleared.stopAll trivial (q := q) (h.filed.queues b) (fun e he => ⟨(hmem e he).1, (hmem e he).2, .inr he⟩) (fun e he => List.mem_map.2 ⟨e, he, rfl⟩)
    (fun e he hp => List.mem_map.2 ⟨e, List.mem_filter.2 ⟨he, hp⟩, rfl⟩) st
  have hout : ∀ x, ((o.out x ∨ x ∈ q) ∧ x ∉ q) → o.out x := fun x hx => hx.1.resolve_right hx.2
  have hfiled : ∀ x, o.out x → ¬ (x ∈ q) := fun x hx hq => h.filed.not_out hq hx
  have hsub (d : DomainId) (hm : d ∈ posters) : d ∈ domains := by
    obtain ⟨e, he, rfl⟩ := List.mem_map.1 hm
    exact List.mem_map.2 ⟨e, (List.mem_filter.1 he).1, rfl⟩
  have hlet := (((hstopped.out_congr (X := o.out) fun x _ _ => ⟨hout x, fun ho => ⟨.inl ho, hfiled x ho⟩⟩).markStale b).letGo trivial (hs := posters) (ss := domains) (fun _ => id) (fun _ => id) hsub)
  refine ((hlet.readyThese_all (fun e he hdone => ?_) fun e he => ?_).forget (old := o.old) fun _ => .inl).of_none
  rotate_left
  · have hmarked := State.letGo_taken_subset posters domains _ he
    have hended := State.foldl_taken_subset (State.markStale_touched b) _ _ hmarked
    exact Tracker.mem_abortOrder_of_taken q (State.foldl_taken_subset (fun v e => v.stopEntry_touched e st) q (s.mapBay b f) hended)
  have hold : e ∈ s.tracker.taken := (Tracker.mem_abortOrder he).elim (fun hm => (hmem e hm).1) id
  refine (hlet.old e (.inr hold)).resolve_right fun hf => ?_
  exact absurd (hdone.symm.trans hf) (by decide)

end State.Work

end Sys2Proof.Machine

/-! The commands of the bays keep the part's invariants (O57 to O59): each is a row of operations at one bay. -/

namespace Sys2Proof.Machine

/-- An event that has only bay `b` to settle, which stands at `st`. -/
def Open.at (b : BayId) (st : Standing) : Open := Open.nothing.withBay b st

theorem Open.at_sound (b : BayId) : Open.at b .sound = Open.nothing := by
  have hbays : (fun c : BayId => if c = b then Standing.sound else .sound) = fun _ => Standing.sound := funext fun c => by rw [ite_self]
  exact congrArg (fun f => { Open.nothing with bays := f }) hbays

theorem Open.at_withBay (b : BayId) (st st' : Standing) : (Open.at b st).withBay b st' = Open.at b st' := by
  have hbays : (fun c : BayId => if c = b then st' else if c = b then st else .sound) = fun c => if c = b then st' else .sound := funext fun c => by
    split <;> rfl
  exact congrArg (fun f => { Open.nothing with bays := f }) hbays

theorem Open.at_bays (b : BayId) (st : Standing) : (Open.at b st).bays b = st := if_pos rfl

/-- The bay of a unit that goes on with its exchanges, or is over. -/
theorem Bay.Stands.onBus {σ : Prop} {b v : Bay} {st : Standing} {e : EntryId} {u : UnitRun} (h : b.Stands st) (hst : st = .going ∨ st = .late) (hu : b.unit = some u)
    (hv : b.OnBus σ e v) (hσ : σ) : v.Stands st := by
  have hwhole (hb : b.Whole) : v.Whole := hv.whole hσ hb.toFit (hb.unit_state hu) (hb.due_eq_false hu)
  rcases hst with rfl | rfl
  · exact ⟨hwhole h.1, by rw [hv.timeouts]; exact h.2⟩
  · exact ⟨hwhole h.1, by rw [hv.state]; exact h.2⟩

theorem Bay.Stands.callArbiter {b : Bay} (h : b.Stands .going) : b.callArbiter.Stands .going := ⟨h.1.callArbiter, h.2⟩

theorem Bay.Stands.whole {b : Bay} {st : Standing} (h : b.Stands st) (hst : st = .going ∨ st = .late) : b.Whole := by
  rcases hst with rfl | rfl
  · exact h.1
  · exact h.1

namespace State.Work

variable {s u : State} {k : Asked} {b : BayId} {st : Standing} {e : EntryId}

/-! ### One step at the bay -/

theorem at_of_nothing (h : s.Work k .nothing) (b : BayId) : s.Work k (.at b .sound) := by rw [Open.at_sound]; exact h

theorem nothing_of_at (h : s.Work k (.at b .sound)) : s.Work k .nothing := by rw [← Open.at_sound b]; exact h

theorem stands (h : s.Work k (.at b st)) (hk : k.sound) : s.bays[b].Stands st := by
  have hb := h.bays hk b
  rw [Open.at_bays] at hb
  exact hb

theorem step (h : s.Work k (.at b st)) (f : Bay → Bay) (st' : Standing) (hq : (f s.bays[b]).queue = s.bays[b].queue)
    (hu : ∀ r, (f s.bays[b]).unit = some r → r.entry ∈ s.bays[b].queue ∧ s.tracker.entries[r.entry].state = .running)
    (hst : k.sound → s.bays[b].Stands st → (f s.bays[b]).Stands st') : (s.mapBay b f).Work k (.at b st') := by
  rw [← Open.at_withBay b st st']
  exact h.mapBay f st' hq hu fun hk => hst hk (h.stands hk)

theorem carry (h : s.Work k (.at b st)) {f : Bay → Bay} (st' : Standing) (hf : s.bays[b].Carries (f s.bays[b]))
    (hst : k.sound → s.bays[b].Stands st → (f s.bays[b]).Stands st') : (s.mapBay b f).Work k (.at b st') := by
  rw [← Open.at_withBay b st st']
  exact h.mapBay_carries st' hf fun hk => hst hk (h.stands hk)

/-- A bay that is sound, or whole with its timeout count, may be taken to be so far only. -/
theorem restand (h : s.Work k (.at b st)) (st' : Standing) (hst : k.sound → s.bays[b].Stands st → s.bays[b].Stands st') : s.Work k (.at b st') := by
  have hsame : s.mapBay b id = s := State.mapBay_of_eq rfl
  rw [← hsame]
  exact h.carry (f := id) st' (.refl _) hst

theorem settleAt (h : s.Work k (.at b .going)) : (s.settle b).Work k .nothing := by
  refine nothing_of_at (b := b) ?_
  rw [← Open.at_withBay b .going .sound]
  exact h.settle (Open.at_bays b .going)

theorem endEntryAt (h : s.Work k (.at b st)) (hst : st = .going ∨ st = .late) (he : e ∈ s.bays[b].queue) (hu : ∀ r, s.bays[b].unit = some r → r.entry ≠ e) (rs : Status) :
    (s.endEntry b e rs).Work k (.at b st) :=
  h.endEntry (fun _ => id) (fun _ => id) he hu (by rw [Open.at_bays]; exact hst) rs

theorem abortAt (h : s.Work k (.at b st)) {f : Bay → Bay} (hq : (f s.bays[b]).queue = []) (hu : (f s.bays[b]).unit = none)
    (hs : k.sound → s.bays[b].Stands st → (f s.bays[b]).Sound) (rs : Status) : (s.abortBay b f rs).Work k .nothing := by
  refine nothing_of_at (b := b) ?_
  rw [← Open.at_withBay b st .sound]
  exact h.abortBay (fun _ => id) (fun _ => id) hq hu (fun hk => hs hk (h.stands hk)) rs

theorem raise {o : Open} (h : s.Work k o) (b : BayId) (c : CondKind) : (s.raise b c).Work k o := h.congr (State.raise_tracker ..) (State.raise_bays ..)

theorem faultBay (h : s.Work k (.at b st)) {c : FaultCause} (hc : c ≠ .none) (hs : k.sound → s.bays[b].Stands st → s.bays[b].mainRail = true) :
    (s.faultBay b c).Work k .nothing :=
  ((h.abortAt (f := Bay.fault c) rfl rfl (fun hk hb => Bay.fault_sound hc (hs hk hb)) .bayFaulted).congr (State.offer_tracker ..) (State.offer_bays ..)).raise b _

theorem removal (h : s.Work k (.at b st)) : (s.removal b).Work k .nothing :=
  (h.abortAt (f := Bay.remove) rfl rfl (fun _ _ => s.bays[b].remove_sound) .moduleGone).raise b _

end State.Work

/-! ### A decision point (R82 to R85, R93) -/

/-- The bay whose arbiter has taken its decision point. -/
structure State.Decides (s : State) (k : Asked) (b : BayId) : Prop where
  work : s.Work k (.at b .going)
  free : s.bays[b].BusFree
  due : s.bays[b].due = false

theorem State.mem_of_inQueue {s : State} {b : BayId} {es : EntryState} {e : EntryId} (h : s.inQueue b es = some e) : e ∈ s.bays[b].queue := List.mem_of_find?_eq_some h

namespace State.Decides

variable {s : State} {k : Asked} {b : BayId} {e : EntryId}

theorem unit_ne (h : s.Decides k b) (r : UnitRun) (hr : s.bays[b].unit = some r) (e : EntryId) : r.entry ≠ e := by
  obtain ⟨-, -, hu⟩ := h.free
  rw [hu] at hr
  cases hr

theorem issue (h : s.Decides k b) (op : ExchangeOp) : (s.mapBay b (Bay.issue op)).Work k (.at b .going) :=
  h.work.carry .going (.of_eq rfl rfl (Nat.le_refl _)) fun _ hb => ⟨hb.1.issue h.free h.due op, hb.2⟩

theorem release (h : s.Decides k b) (l : LaneId) : (s.mapBay b (Bay.issueRelease l)).Work k (.at b .going) :=
  h.work.carry .going (.of_eq rfl rfl (Nat.le_refl _)) fun _ hb => ⟨hb.1.issueRelease h.free h.due l, hb.2⟩

/-- The unit of a RUNNING entry of the queue begins. -/
theorem beginUnit (h : s.Decides k b) (hp : s.bays[b].state ≠ .parking) {u : UnitRun} (he : u.entry ∈ s.bays[b].queue) (hrun : s.tracker.entries[u.entry].state = .running) :
    (s.mapBay b (Bay.beginUnit u)).Work k (.at b .going) := by
  obtain ⟨-, hx, -⟩ := id h.free
  have honbus := Bay.beginUnit_onBus (σ := False) (b := s.bays[b]) False.elim u hx
  refine h.work.step (Bay.beginUnit u) .going honbus.queue (fun r hr => ?_) fun hk hb => ⟨hb.1.beginUnit h.free h.due hp u, ?_⟩
  · have hre : r.entry = u.entry := honbus.unit r hr
    simp only [hre]
    exact ⟨he, hrun⟩
  · rw [honbus.timeouts]
    exact hb.2

/-- An entry of the queue runs. -/
theorem run (h : s.Decides k b) (he : e ∈ s.bays[b].queue) : (s.mapEntry e fun y => { y with state := .running }).Decides k b where
  work := h.work.mapEntry_atBay (h.work.filed.atBay he) rfl (.inl rfl)
  free := h.free
  due := h.due

theorem beginEntry (h : s.Decides k b) (hp : s.bays[b].state ≠ .parking) (he : e ∈ s.bays[b].queue) : (s.beginEntry b e).Work k (.at b .going) := by
  have hends (rs : Status) : ((s.endEntry b e rs).mapBay b Bay.callArbiter).Work k (.at b .going) :=
    (h.work.endEntryAt (.inl rfl) he (fun r hr => h.unit_ne r hr e) rs).carry .going (.callArbiter _) fun _ hb => hb.callArbiter
  unfold State.beginEntry
  dsimp only
  split
  · next t _ =>
    split
    · exact hends .ok
    · split
      · exact hends .railOff
      · have hrun : (s.mapEntry e fun y => { y with state := .running }).tracker.entries[e].state = .running := by rw [State.mapEntry_same]
        exact (h.run he).beginUnit (u := s.tracker.entries[e].nextUnit e t s.bays[b].laneCount) hp he hrun
  · exact h.work

/-- A RUNNING block is SUSPENDED for another entry. -/
theorem suspend (h : s.Decides k b) (he : e ∈ s.bays[b].queue) : (s.mapEntry e fun y => { y with state := .suspended }).Decides k b where
  work := h.work.mapEntry_atBay (h.work.filed.atBay he) rfl (.inr fun c r hr hre => by
    subst hre
    obtain rfl := h.work.filed.bay_unique (h.work.filed.unit c r hr).1 he
    exact h.unit_ne r hr _ rfl)
  free := h.free
  due := h.due

theorem serveEntries (h : s.Decides k b) : (s.serveEntries b).Work k (.at b .going) := by
  have hpoll : (s.idlePoll b).Work k (.at b .going) := by
    unfold State.idlePoll
    split
    · exact h.issue .poll
    · exact h.work
  unfold State.serveEntries
  split
  · exact hpoll
  · next hp =>
    have hp' : s.bays[b].state ≠ .parking := mt beq_iff_eq.2 hp
    split
    · next e he =>
      have hrunning := State.mem_of_inQueue he
      unfold State.continueEntry
      split
      · split
        · next c hc => exact (h.suspend hrunning).beginEntry hp' (List.mem_of_find?_eq_some hc)
        · exact h.beginEntry hp' hrunning
      · exact h.beginEntry hp' hrunning
    · split
      · next e he => exact h.beginEntry hp' (State.mem_of_inQueue he)
      · split
        · next e he => exact h.beginEntry hp' (State.mem_of_inQueue he)
        · exact hpoll

end State.Decides

namespace State.Work

variable {s u : State} {k : Asked} {b : BayId} {st : Standing} {e : EntryId}

theorem arbitrate (h : s.Work k .nothing) (hd : s.bays[b].atDecision = true) : ((s.arbitrate b).settle b).Work k .nothing := by
  have hfree : s.bays[b].BusFree := (Bay.busFree_iff _).1 (Bool.and_eq_true_iff.1 hd).1
  have hdecided : (s.mapBay b Bay.decides).bays[b] = s.bays[b].decides := State.mapBay_same b Bay.decides s
  have hdecides : (s.mapBay b Bay.decides).Decides k b :=
    { work := (h.at_of_nothing b).carry .going (.of_eq rfl rfl (Nat.le_refl _)) fun _ hb => ⟨(Bay.Sound.whole hb).decides hfree, Bay.Sound.timeouts_lt (b := s.bays[b]) hb⟩
      free := by rw [hdecided]; exact hfree
      due := by rw [hdecided]; rfl }
  refine settleAt ?_
  unfold State.arbitrate
  dsimp only
  split
  · exact hdecides.issue .poll
  · exact hdecides.release _
  · exact hdecides.serveEntries

/-! ### The end of an exchange (R71, R89, R97) -/

section
variable (h : s.Work k (.at b st)) (hst : st = .going ∨ st = .late)
include h hst

theorem unitDone (he : e ∈ s.bays[b].queue) (hu : s.bays[b].unit = none) (bytes : List Byte) : (s.unitDone b e bytes).Work k (.at b st) := by
  have hends {v : State} (hv : v.Work k (.at b st)) (hb : v.bays = s.bays) (rs : Status) : (v.endEntry b e rs).Work k (.at b st) :=
    hv.endEntryAt hst (by rw [hb]; exact he) (fun r hr => by rw [hb, hu] at hr; cases hr) rs
  have hcount : (s.mapEntry e fun y => { y with unitsDone := s.tracker.entries[e].unitsDone + 1 }).Work k (.at b st) :=
    h.mapEntry_congr (fun y => { y with unitsDone := s.tracker.entries[e].unitsDone + 1 }) rfl rfl rfl rfl rfl rfl
  have hstore (n : Nat) (ws : List Word) : (s.mapEntry e fun y => { y with unitsDone := n, buffer := ws }).Work k (.at b st) :=
    h.mapEntry_congr (fun y => { y with unitsDone := n, buffer := ws }) rfl rfl rfl rfl rfl rfl
  have hread (ws : List Word) : (s.mapEntry e fun y => { y with buffer := ws }).Work k (.at b st) :=
    h.mapEntry_congr (fun y => { y with buffer := ws }) rfl rfl rfl rfl rfl rfl
  unfold State.unitDone
  dsimp only
  split
  · split
    · exact hends (hstore _ _) rfl .ok
    · exact hstore _ _
  · split
    · exact hends hcount rfl .ok
    · exact hcount
  · exact hends (hread _) rfl .ok
  · exact hends h rfl .ok

/-- The exchange of a unit has ended. -/
theorem unitEnd {w : UnitRun} (hw : s.bays[b].unit = some w) {r : Bay × UnitResult} (hr : ∀ σ : Prop, (σ → ∀ l : LaneId, s.bays[b].lanes[l].Sound) → s.bays[b].UnitEnds σ w r) :
    (s.unitEnd b w.entry r).Work k (.at b st) := by
  obtain ⟨hmem, hrun⟩ := h.filed.unit b w hw
  have hquiet := hr False False.elim
  have hbay : (s.mapBay b fun _ => r.1).Work k (.at b st) := by
    refine h.step _ st hquiet.onBus.queue (fun x hx => ?_) fun hk hb => ?_
    · have hxe := hquiet.onBus.unit x hx
      simp only [hxe]
      exact ⟨hmem, hrun⟩
    · exact hb.onBus hst hw (hr True fun _ => (hb.whole hst).lanes).onBus trivial
  have hqueue : w.entry ∈ (s.mapBay b fun _ => r.1).bays[b].queue := by rw [State.mapBay_same, hquiet.onBus.queue]; exact hmem
  have hnone (hover : r.1.unit = none) : (s.mapBay b fun _ => r.1).bays[b].unit = none := by rw [State.mapBay_same]; exact hover
  unfold State.unitEnd State.unitResult
  split
  · exact hbay
  · exact hbay.mapEntry_congr (fun y => { y with oldValue := _, carry := _, buffer := _ }) rfl rfl rfl rfl rfl rfl
  · next bytes hres =>
    refine hbay.unitDone hst hqueue (hnone (hquiet.ends.resolve_left fun hh => ?_)) bytes
    rw [hres] at hh
    rcases hh with hh | ⟨_, _, hh⟩ <;> cases hh
  · next rs hres =>
    refine hbay.endEntryAt hst hqueue (fun x hx => ?_) rs
    rw [hnone (hquiet.ends.resolve_left fun hh => ?_)] at hx
    · cases hx
    · rw [hres] at hh
      rcases hh with hh | ⟨_, _, hh⟩ <;> cases hh

theorem arbiterEnd (op : ExchangeOp) : (s.arbiterEnd b op).Work k (.at b st) := by
  unfold State.arbiterEnd
  split
  · next l =>
    refine h.carry st ?_ fun _ hb => ?_
    · rw [Bay.startRecovery_withLanes]
      exact .of_eq rfl rfl (Nat.le_refl _)
    · rcases hst with rfl | rfl
      · exact ⟨hb.1.startRecovery l, by rw [Bay.startRecovery_withLanes]; exact hb.2⟩
      · exact ⟨hb.1.startRecovery l, by rw [Bay.startRecovery_withLanes]; exact hb.2⟩
  · exact h

theorem payPoll : (s.mapBay b Bay.payPoll).Work k (.at b st) :=
  h.carry st (.of_eq rfl rfl (Nat.le_refl _)) fun _ hb => by
    rcases hst with rfl | rfl
    · exact ⟨hb.1.payPoll, hb.2⟩
    · exact ⟨hb.1.payPoll, hb.2⟩

theorem pollFailure : (s.pollFailure b).Work k (.at b st) := (h.payPoll hst).congr (State.offer_tracker ..) (State.offer_bays ..)

end

/-- A POLL answered ACK. -/
theorem pollAck (h : s.Work k (.at b .going)) (w : StatusWord) : (s.pollAck b w).Work k (.at b .going) := by
  have hrises : ((risesOf s.bays[b].lastStatus w).foldl (fun s c => s.raise b c) (s.mapBay b Bay.payPoll)).Work k (.at b .going) :=
    foldl_kept (P := fun v : State => v.Work k (.at b .going)) (fun _ c hv => hv.raise b c) _ _ (h.payPoll (.inl rfl))
  unfold State.pollAck
  dsimp only
  have hstatus := hrises.carry (f := fun y => { y with lastStatus := w }) .going (.of_eq rfl rfl (Nat.le_refl _)) fun _ hb => ⟨hb.1.withStatus w, hb.2⟩
  split
  · next hc =>
    have harb := (Bool.and_eq_true_iff.1 hc).2
    refine ((hstatus.faultBay (c := .moduleNotReady) (by decide) fun _ hb => hb.1.mainRail_eq ?_).at_of_nothing b).restand .going fun _ hb => hb.going
    revert harb
    cases BayState.arbitrates_iff _ with
    | intro hmp _ => exact fun harb => by rcases hmp harb with hs | hs | hs <;> rw [hs] <;> rfl
  · exact hstatus

/-- The end of an exchange at its bay. -/
theorem busRest (h : s.Work k (.at b .going)) : (s.busRest b).Work k .nothing := by
  have hcalled := h.carry (f := Bay.callArbiter) .going (.callArbiter _) fun _ hb => hb.callArbiter
  have hsettled := hcalled.settleAt
  rw [State.settle_mapBay] at hsettled
  exact hsettled

theorem exchangeAnswered {op : ExchangeOp} (h : s.Work k (.at b .going)) (hx : s.bays[b].exchange = none) (a : Answer) : (s.answered b op a).Work k (.at b .going) := by
  unfold State.answered
  split
  · exact h.pollAck _
  · exact h.pollFailure (.inl rfl)
  · split
    · next w hw =>
      split
      · exact h.unitEnd (.inl rfl) hw fun σ hl => Bay.unitAck_ends hl hw hx _
      · exact h.unitEnd (.inl rfl) hw fun σ hl => Bay.unitNak_ends hl hw hx
    · exact h.arbiterEnd (.inl rfl) _

theorem timedOut (h : s.Work k (.at b st)) (hst : st = .going ∨ st = .late) (op : ExchangeOp) : (s.timedOut b op).Work k (.at b st) := by
  unfold State.timedOut
  split
  · exact h.pollFailure hst
  · split
    · next w hw => exact h.unitEnd hst hw fun σ hl => Bay.unitTimeout_ends hl w
    · exact h.arbiterEnd hst _

end State.Work

end Sys2Proof.Machine

/-! The commands of the bays keep the part's invariants: what an event that has released more than once leaves of the queues (R53), and the commands themselves. -/

namespace Sys2Proof.Machine

/-! ### The queues put into the order taken (R53) -/

theorem Tracker.joinOrder_nodup {t : Tracker} {before now : List EntryId} (ht : t.taken.Nodup) (hn : now.Nodup) : (t.joinOrder before now).Nodup := by
  refine List.nodup_append.2 ⟨hn.filter _, ht.filter _, fun e he x he' hex => ?_⟩
  subst hex
  obtain ⟨-, hb⟩ := List.mem_filter.1 he
  obtain ⟨-, hnot⟩ := List.mem_filter.1 he'
  rw [hb] at hnot
  exact absurd (Bool.and_eq_true_iff.1 hnot).2 (by decide)

theorem List.eq_nil_iff_of_mem {α : Type} {l m : List α} (h : ∀ x, x ∈ l ↔ x ∈ m) : l = [] ↔ m = [] := by
  rw [List.eq_nil_iff_forall_not_mem, List.eq_nil_iff_forall_not_mem]
  exact forall_congr' fun x => not_congr (h x)

/-- The order of a queue says nothing of the soundness of its bay. -/
theorem Bay.Sound.withQueue {b : Bay} (h : b.Sound) {q : List EntryId} (hq : q = [] ↔ b.queue = []) : Bay.Sound { b with queue := q } := by
  obtain ⟨hout, hhold, ⟨howed, houtside, htimeouts, hx, hforced, hunit, hpoll, hdue, hparked⟩, ⟨hpark, hdrain⟩, hlanes⟩ := h
  refine ⟨hout, hhold, ⟨howed, fun hs => (houtside hs).imp_right hq.2, htimeouts, hx, hforced, hunit, hpoll, hdue, fun hs => (hparked hs).imp_left hq.2⟩,
    ⟨hpark, fun hs he => hdrain hs (hq.1 he)⟩, hlanes⟩

/-- Queues that hold the same entries file them alike. -/
theorem State.Filed.withQueues {s u : State} {X : EntryId → Prop} (h : s.Filed X) (ht : u.tracker = s.tracker) (hn : ∀ b : BayId, u.bays[b].queue.Nodup)
    (hq : ∀ (b : BayId) (e : EntryId), e ∈ u.bays[b].queue ↔ e ∈ s.bays[b].queue) (hu : ∀ b : BayId, u.bays[b].unit = s.bays[b].unit) : u.Filed X where
  taken := ht ▸ h.taken
  queues := hn
  entry e := by
    have hsame : (fun b : BayId => e ∈ u.bays[b].queue) = fun b : BayId => e ∈ s.bays[b].queue := funext fun b => propext (hq b e)
    rw [hsame, ht]
    exact h.entry e
  unit b r hr := by
    rw [hu] at hr
    rw [hq, ht]
    exact h.unit b r hr

namespace State.Work

variable {s u : State} {k : Asked} {b : BayId} {st : Standing} {e : EntryId}

theorem joinAsTaken (h : s.Work k .nothing) (s0 : State) : (s0.joinAsTaken s).Work k .nothing := by
  have hmem (b : BayId) (e : EntryId) : e ∈ s.tracker.joinOrder s0.bays[b].queue s.bays[b].queue ↔ e ∈ s.bays[b].queue :=
    Tracker.mem_joinOrder (fun x hx => h.filed.mem_taken hx) e
  refine { filed := h.filed.withQueues rfl (fun b => ?_) (fun b e => ?_) fun b => ?_, obeys := h.obeys, answering := h.answering, answered := h.answered, old := h.old, bays := fun hk b => ?_ }
  · rw [State.joinAsTaken_bay]
    exact Tracker.joinOrder_nodup h.filed.taken (h.filed.queues b)
  · rw [State.joinAsTaken_bay]
    exact hmem b e
  · rw [State.joinAsTaken_bay]
  · rw [State.joinAsTaken_bay]
    exact Bay.Sound.withQueue (b := s.bays[b]) (h.bays hk b) (List.eq_nil_iff_of_mem (hmem b))

/-! ### The commands of a bay's bus -/

theorem exec_exchangeAnswer (h : s.Work k .nothing) (late : Bool) (a : Answer) (hu : execExchangeAnswer b late a s = .next u) : u.Work k .nothing := by
  unfold execExchangeAnswer at hu
  split at hu
  · cases hu
    have hended := (h.at_of_nothing b).carry (f := Bay.endExchange 0) .going (.of_eq rfl rfl (Nat.zero_le _)) fun _ hb =>
      ⟨(Bay.Sound.whole hb).endExchange 0, show 0 < Config.timeoutMax by decide⟩
    exact (hended.exchangeAnswered (by rw [State.mapBay_same]; rfl) a).busRest
  · cases hu; exact h

/-- The exchange in progress ends as the `n`-th timeout in a row. -/
theorem endExchange (h : s.Work k .nothing) {n : Nat} (st : Standing) (hst : k.sound → s.bays[b].Sound → (s.bays[b].endExchange n).Stands st) :
    (s.mapBay b (Bay.endExchange n)).Work k (.at b st) :=
  (h.at_of_nothing b).step (Bay.endExchange n) st rfl (fun r hr => h.filed.unit b r hr) hst

theorem exec_exchangeTimeout (h : s.Work k .nothing) (hu : execExchangeTimeout b s = .next u) : u.Work k .nothing := by
  unfold execExchangeTimeout at hu
  split at hu
  · next x hx =>
    cases hu
    split
    · have hended := h.endExchange (b := b) (n := s.bays[b].timeouts + 1) .late fun _ hb => by
        refine ⟨hb.whole.endExchange _, ?_⟩
        have harb := hb.whole.exchange (by rw [hx]; rfl)
        rcases (BayState.arbitrates_iff _).1 harb with hs | hs | hs <;> rw [show ∀ y : Bay, (y.endExchange (s.bays[b].timeouts + 1)).state = y.state from fun _ => rfl, hs] <;> rfl
      have hfault := (hended.timedOut (.inr rfl) x.op).faultBay (c := .exchangeTimeouts) (by decide) fun _ hb => hb.1.mainRail_eq (BayState.powered_of_inService hb.2)
      exact (((hfault.joinAsTaken s).at_of_nothing b).restand .going fun _ hb => Bay.Sound.going hb).busRest
    · next hlt =>
      have hended := h.endExchange (b := b) (n := s.bays[b].timeouts + 1) .going fun _ hb => ⟨hb.whole.endExchange _, Nat.not_le.1 hlt⟩
      exact (hended.timedOut (.inl rfl) x.op).busRest
  · cases hu; exact h

/-! ### The timers in service -/

theorem exec_dwellExpiry (h : s.Work k .nothing) (l : LaneId) : (s.mapBay b (Bay.dwellEnds l)).Work k .nothing :=
  nothing_of_at ((h.at_of_nothing b).carry .sound (.dwellEnds _ l) fun _ hb => Bay.Sound.dwellEnds hb (h.queue_ne_nil b) l)

theorem exec_recoveryExpiry (h : s.Work k .nothing) (l : LaneId) : ((s.mapBay b (Bay.recoveryEnds l)).settle b).Work k .nothing :=
  settleAt ((h.at_of_nothing b).carry .going (.recoveryEnds _ l) fun _ hb =>
    ⟨(Bay.Sound.whole hb).recoveryEnds l, Nat.lt_of_le_of_lt (Bay.Carries.recoveryEnds _ l).timeouts (Bay.Sound.timeouts_lt hb)⟩)

theorem exec_pollTimerExpiry (h : s.Work k .nothing) (hu : execPollTimerExpiry b s = .next u) : u.Work k .nothing := by
  unfold execPollTimerExpiry at hu
  split at hu
  · next n hn =>
    cases hu
    have hticked : ((s.mapBay b Bay.pollTick).settle b).Work k .nothing := settleAt ((h.at_of_nothing b).carry .going (.pollTick _) fun _ hb =>
      ⟨(Bay.Sound.whole hb).pollTick (by rw [hn]; rfl), Nat.lt_of_le_of_lt (Bay.Carries.pollTick _).timeouts (Bay.Sound.timeouts_lt hb)⟩)
    split
    · exact hticked
    · exact hticked.raise b _
  · cases hu; exact h

theorem exec_wakeTimerExpiry (h : s.Work k .nothing) (hu : execWakeTimerExpiry b s = .next u) : u.Work k .nothing := by
  unfold execWakeTimerExpiry at hu
  split at hu
  · next hc =>
    cases hu
    have hs : s.bays[b].state = .waking := eq_of_beq (Bool.and_eq_true_iff.1 hc).1
    refine settleAt ((h.at_of_nothing b).carry .going (.wakeEnds _) fun _ hb => ?_)
    have hfit := (Bay.Sound.whole hb).toFit
    exact ⟨(hfit.wakeEnds (by rw [hs]; rfl) (hfit.exchange_eq_none (by rw [hs]; rfl)) (hfit.unit_eq_none (by rw [hs]; decide) (by rw [hs]; decide))).1,
      Nat.lt_of_le_of_lt (Bay.Carries.wakeEnds _).timeouts (Bay.Sound.timeouts_lt hb)⟩
  · cases hu; exact h

/-! ### The life of a module outside service -/

/-- A bay goes from sound to sound. -/
theorem toSound (h : s.Work k .nothing) {f : Bay → Bay} (hf : s.bays[b].Carries (f s.bays[b])) (hs : s.bays[b].Sound → (f s.bays[b]).Sound) :
    (s.mapBay b f).Work k .nothing := nothing_of_at ((h.at_of_nothing b).carry .sound hf fun _ => hs)

theorem contactChanged (h : s.Work k .nothing) (made : Bool) : (s.contactChanged b made).Work k .nothing := by
  unfold State.contactChanged
  split
  · next hs =>
    split
    · exact h.toSound (.of_eq rfl rfl (Nat.le_refl _)) fun hb => hb.enterSeating_sound hs
    · exact h
  · next hs =>
    split
    · exact h
    · exact h.toSound (.of_eq rfl rfl (Nat.le_refl _)) fun hb => hb.enter_outside (by rw [hs]; rfl) .empty none rfl nofun rfl
  · split
    · exact h
    · exact (h.at_of_nothing b).removal

theorem exec_presenceContactChange (h : s.Work k .nothing) (c : Contact) (made : Bool) (hu : execPresenceContactChange b c made s = .next u) : u.Work k .nothing := by
  unfold execPresenceContactChange at hu
  split at hu
  · cases hu; exact h
  · cases hu
    refine contactChanged (h.toSound ?_ fun hb => hb.setContact c made) made
    cases c <;> exact .of_eq rfl rfl (Nat.le_refl _)

theorem enterPowering_carries (b : Bay) : b.Carries b.enterPowering := by
  unfold Bay.enterPowering
  dsimp only
  split <;> exact .of_eq rfl rfl (Nat.le_refl _)

theorem exec_debounceExpiry (h : s.Work k .nothing) (hu : execDebounceExpiry b s = .next u) : u.Work k .nothing := by
  unfold execDebounceExpiry at hu
  split at hu
  · next hc =>
    cases hu
    have hs : (s.raise b .presence).bays[b].state = .seating := by rw [State.raise_bays]; exact eq_of_beq (Bool.and_eq_true_iff.1 hc).1
    refine (h.raise b .presence).toSound ?_ fun hb => hb.seated (by rw [hs]; rfl)
    unfold Bay.seated
    split
    · exact .enter _ _
    · exact enterPowering_carries _
  · cases hu; exact h

theorem exec_railGood (h : s.Work k .nothing) (level : Bool) : (s.mapBay b (Bay.railReport level)).Work k .nothing := by
  refine h.toSound ?_ fun hb => hb.railReport level
  unfold Bay.railReport
  dsimp only
  split <;> exact .of_eq rfl rfl (Nat.le_refl _)

theorem exec_holdTimerExpiry (h : s.Work k .nothing) (hu : execHoldTimerExpiry b s = .next u) : u.Work k .nothing := by
  unfold execHoldTimerExpiry at hu
  split at hu
  · next hc =>
    cases hu
    have hs : s.bays[b].state = .held := eq_of_beq (Bool.and_eq_true_iff.1 hc).1
    refine h.toSound ?_ fun hb => hb.enterStarting_sound (by rw [hs]; rfl)
    unfold Bay.enterStarting
    dsimp only
    split <;> exact .of_eq rfl rfl (Nat.le_refl _)
  · cases hu; exact h

theorem exec_moduleReady (h : s.Work k .nothing) (level : Bool) : (s.mapBay b (Bay.readyReport level)).Work k .nothing := by
  refine h.toSound ?_ fun hb => hb.readyReport level
  unfold Bay.readyReport
  dsimp only
  split <;> exact .of_eq rfl rfl (Nat.le_refl _)

/-- A fault in a state of the life of a module that has its rails on. -/
theorem faultIn (h : s.Work k .nothing) {c : FaultCause} (hc : c ≠ .none) {bs : BayState} (hs : s.bays[b].state = bs) (hp : bs.powered = true) : (s.faultBay b c).Work k .nothing :=
  (h.at_of_nothing b).faultBay hc fun _ hb => (Bay.Sound.whole hb).mainRail_eq (by rw [hs]; exact hp)

/-- The identity line of a bay that is being read is as far as the read has come. -/
theorem readLine (h : s.Work k .nothing) (acts : List LineAct) : (s.mapBay b (Bay.readLine acts)).Work k (.at b .loose) :=
  (h.at_of_nothing b).carry .loose (.of_eq rfl rfl (Nat.le_refl _)) fun _ _ => trivial

theorem mainRail_of_identifying (h : s.Work k .nothing) (hs : s.bays[b].state = .identifying) (hk : k.sound) (acts : List LineAct) :
    (s.mapBay b (Bay.readLine acts)).bays[b].mainRail = true := by
  rw [State.mapBay_same]
  exact (Bay.Sound.whole (h.bays hk b)).mainRail_eq (by rw [hs]; rfl)

theorem exec_idNoAnswer (h : s.Work k .nothing) {slot : IdSlot} (hu : execIdNoAnswer slot s = .next u) : u.Work k .nothing := by
  unfold execIdNoAnswer at hu
  dsimp only at hu
  split at hu
  · next hc =>
    cases hu
    exact (h.readLine _).faultBay (by decide) fun hk _ => h.mainRail_of_identifying (eq_of_beq hc) hk _
  · cases hu; exact h

theorem exec_identityReadEnd (h : s.Work k .nothing) {bytes : List (BitVec 8)} (hu : execIdentityReadEnd b bytes s = .next u) : u.Work k .nothing := by
  unfold execIdentityReadEnd at hu
  split at hu
  · next hc =>
    obtain rfl := Host.Outcome.next.inj hu
    have hs : s.bays[b].state = .identifying := eq_of_beq hc
    have hread := h.readLine (b := b) (lineAnswered (identityOfBytes bytes))
    unfold State.identityRead
    dsimp only
    split
    · refine (nothing_of_at (hread.carry .sound ?_ fun hk _ => ?_)).raise b _
      · exact .of_eq rfl rfl (Nat.zero_le _)
      · rw [State.mapBay_same]
        exact Bay.Sound.enterOnline_sound (h.bays hk b) hs _ _
    · exact hread.faultBay (by decide) fun hk _ => h.mainRail_of_identifying hs hk _
  · cases hu; exact h

/-! ### Every command of a bay -/

theorem of_guarded {c : Prop} [Decidable c] {v : State} (hs : s.Work k .nothing) (hv : c → v.Work k .nothing)
    (h : (if c then .next v else .next s : Host.Outcome State Fault Refusal) = .next u) : u.Work k .nothing := by
  split at h
  · next hc => cases h; exact hv hc
  · cases h; exact hs

theorem exec_ofBay (h : s.Work k .nothing) {c : Instr} (hc : commandOfBay c = true) (hu : exec c s = .next u) : u.Work k .nothing := by
  cases c with
  | bayDecisionPoint b => exact of_guarded h h.arbitrate hu
  | exchangeAnswer b late a => exact h.exec_exchangeAnswer late a hu
  | exchangeTimeout b => exact h.exec_exchangeTimeout hu
  | dwellExpiry b l => cases hu; exact h.exec_dwellExpiry l
  | recoveryExpiry b l => cases hu; exact h.exec_recoveryExpiry l
  | pollTimerExpiry b => exact h.exec_pollTimerExpiry hu
  | wakeTimerExpiry b => exact h.exec_wakeTimerExpiry hu
  | presenceContactChange b c made => exact h.exec_presenceContactChange c made hu
  | debounceExpiry b => exact h.exec_debounceExpiry hu
  | railGood b level => cases hu; exact h.exec_railGood level
  | railTimerExpiry b => exact of_guarded h (fun hc => h.faultIn (by decide) (eq_of_beq (Bool.and_eq_true_iff.1 hc).1) rfl) hu
  | holdTimerExpiry b => exact h.exec_holdTimerExpiry hu
  | moduleReady b level => cases hu; exact h.exec_moduleReady level
  | readyTimerExpiry b => exact of_guarded h (fun hc => h.faultIn (by decide) (eq_of_beq (Bool.and_eq_true_iff.1 hc).1) rfl) hu
  | idNoAnswer slot => exact h.exec_idNoAnswer hu
  | identityReadEnd b bytes => exact h.exec_identityReadEnd hu
  | _ => cases hc

end State.Work

end Sys2Proof.Machine

/-! The services of the arbiter keep the part's invariants (O57 to O59): a request taken, and its end, its place at a bay, or its wait as a SYNC. -/

namespace Sys2Proof.Machine

/-! ### A new entry (R32, R44) -/

/-- An event that has taken the entries of `out` and given them no place yet, with the SYNCs of `ss` to examine. -/
def Open.taking (out : EntryId → Prop) (ss : DomainId → Prop) : Open := { Open.nothing with out := out, syncs := ss }

theorem Open.withBay_self {o : Open} {b : BayId} {st : Standing} (h : o.bays b = st) : o.withBay b st = o := by
  have hbays : (fun c => if c = b then st else o.bays c) = o.bays := funext fun c => by
    split
    · next hc => rw [hc, h]
    · rfl
  exact congrArg (fun f => { o with bays := f }) hbays

/-- A new entry that has no state yet. -/
theorem Entry.Filed.of_new {x : Entry} {listed out : Prop} {queued : BayId → Prop} (hs : x.state = .free) (hr : x.response = none) (ho : out) (hq : ∀ b, ¬ queued b) :
    x.Filed listed queued out where
  inUse _ hn := absurd ho hn
  held _ hh := absurd (hs.symm.trans hh) (by decide)
  waiting _ hw := absurd (hs.symm.trans hw) (by decide)
  response _ hres := by rw [hr] at hres; cases hres
  done _ hd := absurd (hs.symm.trans hd) (by decide)
  placed _ ha := by rw [hs] at ha; cases ha
  queue b := iff_of_false (hq b) fun ⟨_, ha, _⟩ => by rw [hs] at ha; cases ha

namespace Tracker.Takes

variable {t u : Tracker} {e : EntryId}

/-- A condition on the entries taken before the new one is one on all that were listed. -/
theorem any_before_self (h : t.Takes u e) (p : Entry → Bool) : (u.before e).any (fun x => p u.entries[x]) = t.taken.any fun x => p t.entries[x] := by
  rw [h.before_self, Bool.eq_iff_iff, List.any_eq_true, List.any_eq_true]
  exact exists_congr fun x => and_congr_right fun hx => by rw [h.entry_of_mem hx]

theorem any_iff_filter_ne_nil (p : EntryId → Bool) (l : List EntryId) : l.any p = true ↔ l.filter p ≠ [] := by
  rw [List.any_eq_true, filter_ne_nil_iff]

theorem earlierPosted_self (h : t.Takes u e) : u.earlierPosted e = true ↔ t.postedSet u.entries[e].domain ≠ [] := by
  rw [Tracker.earlierPosted, h.any_before_self fun y => y.domain == u.entries[e].domain && y.postedOpen]
  exact any_iff_filter_ne_nil _ _

theorem earlierHeld_self (h : t.Takes u e) (b : BayId) : u.earlierHeld e b = true ↔ t.holdList u.entries[e].domain b ≠ [] := by
  rw [Tracker.earlierHeld, h.any_before_self fun y => y.heldFor u.entries[e].domain b]
  exact any_iff_filter_ne_nil _ _

end Tracker.Takes

namespace State.Work

variable {s u v : State} {k : Asked} {o : Open} {e : EntryId} {b : BayId}

theorem not_taken_of_free (h : s.Work k .nothing) (hf : s.tracker.entries[e].state = .free) : e ∉ s.tracker.taken := fun hm => (h.filed.entry e).inUse hm not_false hf

/-- A bay that is sound between events changes and is sound again. -/
theorem mapBay_sound (h : s.Work k o) (ho : o.bays b = .sound) {f : Bay → Bay} (hf : s.bays[b].Carries (f s.bays[b])) (hs : k.sound → s.bays[b].Sound → (f s.bays[b]).Sound) :
    (s.mapBay b f).Work k o := by
  have hstands (hk : k.sound) : s.bays[b].Stands .sound := ho ▸ h.bays hk b
  have hmapped := h.mapBay_carries .sound hf fun hk => hs hk (hstands hk)
  rw [Open.withBay_self ho] at hmapped
  exact hmapped

/-- The entry `e` is taken, with the place that its record and the lists give it. -/
theorem takes (h : s.Work k .nothing) {out : EntryId → Prop} {ss : DomainId → Prop} (ht : s.tracker.Takes u.tracker e) (hb : u.bays = s.bays) (hout : ∀ x, out x → x = e)
    (hf : u.tracker.entries[e].Filed (e ∈ u.tracker.taken) (fun _ => False) (out e))
    (hstrict : u.tracker.entries[e].state.atBay = true → ∀ x, u.tracker.entries[e].xlat = some x → u.tracker.strictHold e x = false)
    (hheld : u.tracker.entries[e].state = .held → ∀ x, u.tracker.entries[e].xlat = some x → u.tracker.earlierHeld e x.bay = false → u.tracker.strictHold e x = true)
    (hwait : u.tracker.entries[e].state = .waiting → ss u.tracker.entries[e].domain) (hdone : u.tracker.entries[e].state ≠ .done)
    (ho : u.tracker.order = s.tracker.order ∧ u.tracker.entries[e].response = none
      ∨ u.tracker.order = s.tracker.order ++ [e] ∧ u.tracker.entries[e].response.isSome = true) : u.Work k (.taking out ss) where
  filed := by
    refine ⟨?_, fun b => hb ▸ h.filed.queues b, fun x => ?_, fun b r hr => ?_⟩
    · rw [ht.taken]
      exact nodup_concat h.filed.taken ht.new
    · by_cases hx : x = e
      · subst hx
        have hnot : (fun b : BayId => x ∈ u.bays[b].queue) = fun _ => False := funext fun b => eq_false fun hq => ht.new (h.filed.mem_taken (hb ▸ hq))
        rw [hnot]
        exact hf
      · have hlisted : (x ∈ u.tracker.taken) = (x ∈ s.tracker.taken) := propext (ht.mem_iff.trans (or_iff_left hx))
        have hnot : out x = False := eq_false fun hox => hx (hout x hox)
        show u.tracker.entries[x].Filed (x ∈ u.tracker.taken) _ (out x)
        rw [hlisted, hnot, hb, ht.others x hx]
        exact h.filed.entry x
    · rw [hb] at hr ⊢
      obtain ⟨hq, hs⟩ := h.filed.unit b r hr
      exact ⟨hq, by rw [ht.entry_of_mem (h.filed.mem_taken hq)]; exact hs⟩
  obeys := ht.obeys (h.obeys.mono (fun _ => id) fun _ => False.elim) hstrict hheld hwait
  answering _ := (h.answering not_false).takes ht ho
  bays hk b := hb ▸ h.bays hk b
  answered _ x hx hs := by
    rcases ht.mem_iff.1 hx with hx | rfl
    · rw [ht.entry_of_mem hx] at hs ⊢
      exact h.answered not_false x hx hs
    · exact absurd hs hdone
  old _ := False.elim

theorem takeRequest (h : s.Work k .nothing) {t : Taken} (hf : s.tracker.entries[t.entry].state = .free) : (s.takeRequest t).Work k (.taking (· = t.entry) fun _ => False) := by
  have hentry := State.takeRequest_entry t s
  have hstate : (s.takeRequest t).tracker.entries[t.entry].state = .free := by rw [hentry]; rfl
  refine h.takes (e := t.entry) ⟨h.not_taken_of_free hf, State.takeRequest_taken t s, State.takeRequest_other t s⟩ rfl (fun _ => id)
    (.of_new hstate (by rw [hentry]; rfl) rfl fun _ => id) ?_ ?_ ?_ ?_ (.inl ⟨rfl, by rw [hentry]; rfl⟩)
  · rw [hstate]; nofun
  · rw [hstate]; nofun
  · rw [hstate]; nofun
  · rw [hstate]; nofun

end State.Work

/-! ### The services that end with their request (R33, R46) -/

/-- The entry of a request that is taken, and that the service has still to end. -/
structure State.InHand (s : State) (t : Taken) : Prop where
  taken : t.entry ∈ s.tracker.taken
  free : s.tracker.entries[t.entry].state = .free
  domain : s.tracker.entries[t.entry].domain = t.request.domain
  posted : s.tracker.entries[t.entry].posted = false
  response : s.tracker.entries[t.entry].response = none

theorem State.takeRequest_inHand (s : State) (t : Taken) : (s.takeRequest t).InHand t where
  taken := List.mem_append_right _ List.mem_cons_self
  free := by rw [State.takeRequest_entry]; rfl
  domain := by rw [State.takeRequest_entry]; rfl
  posted := by rw [State.takeRequest_entry]; rfl
  response := by rw [State.takeRequest_entry]; rfl

theorem State.InHand.congr {s v : State} {t : Taken} (h : s.InHand t) (hv : v.tracker = s.tracker) : v.InHand t := by
  obtain ⟨ht, hf, hd, hp, hr⟩ := h
  exact ⟨hv ▸ ht, hv ▸ hf, hv ▸ hd, hv ▸ hp, hv ▸ hr⟩

namespace State.Work

variable {s u v : State} {k : Asked} {o : Open} {e : EntryId} {b : BayId}

/-- The request ends, and the SYNCs of its domain are examined. -/
theorem finish {t : Taken} (h : s.Work k (.taking (· = t.entry) fun _ => False)) (hin : s.InHand t) (st : Status) (fill : Entry → Entry)
    (hfill : ∀ x, ∃ f r b, fill x = { x with flags := f, result := r, buffer := b }) : (s.finish t st fill).Work k .nothing := by
  obtain ⟨f, r, b, hfilled⟩ := hfill s.tracker.entries[t.entry]
  let filled := s.mapEntry t.entry fill
  have hentry : filled.tracker.entries[t.entry] = { s.tracker.entries[t.entry] with flags := f, result := r, buffer := b } := by
    rw [← hfilled]
    exact State.mapEntry_same _ _ _
  have hwork : filled.Work k { Open.taking (· = t.entry) fun d => d ∈ [t.request.domain] with silent := True } :=
    ((h.mapEntry_congr fill (by rw [hfilled]) (by rw [hfilled]) (by rw [hfilled]) (by rw [hfilled]) (by rw [hfilled]) (by rw [hfilled])).silenced).mono (fun _ => id) fun _ => False.elim
  have hstate : filled.tracker.entries[t.entry].state = .free := by rw [hentry]; exact hin.free
  have hqueue (b : BayId) : t.entry ∉ filled.bays[b].queue := (hwork.filed.entry t.entry).not_queued (by rw [hstate]; rfl) b
  have hdone := hwork.goDone trivial hin.taken (by rw [hentry]; exact List.mem_singleton.2 hin.domain) st hqueue (by rw [hentry]; exact hin.posted) (.inr (by rw [hstate]; nofun))
  have hended := State.goDone_same t.entry st filled
  have hready := hdone.readyDone hin.taken (by rw [hended]) (by rw [hended, hentry]; exact hin.response)
  have hplaced := hready.out_congr (X := fun _ => False) fun x _ hs => iff_of_false (fun hx => hs ?_) id
  · exact hplaced.examine trivial (hs := []) (ss := [t.request.domain]) (fun _ => False.elim) (fun _ => id) fun _ hd => nomatch hd
  · have hx' : x = t.entry := hx
    subst hx'
    rw [State.readyDone, State.makeReady_same, hended]

/-- What a service has made of the bays by the time its request ends. -/
theorem serviceBays {t : Taken} {out : EntryId → Prop} {ss : DomainId → Prop} (h : s.Work k (.taking out ss)) (ht : v.tracker = s.tracker) (hb : Service.Bays t s v) : v.Work k (.taking out ss) := by
  cases hb with
  | same hb => exact h.congr ht hb
  | policy b p hb => exact (h.mapBay_sound (b := b) (f := fun y => { y with policy := p }) rfl (.of_eq rfl rfl (Nat.le_refl _)) fun _ hs => hs).congr ht hb
  | acted f hf y hy hb =>
    exact (h.mapBay_sound (b := t.request.actionBay) (f := fun _ => y) rfl (.acted hf hy) fun _ hs => Bay.Sound.acted hs (h.queue_ne_nil _) hf hy).congr ht hb

theorem finishes {t : Taken} {st : Status} {fill : Entry → Entry} (h : s.Work k (.taking (· = t.entry) fun _ => False)) (hin : s.InHand t) (hu : Service.Finishes t s v st fill u) :
    u.Work k .nothing :=
  ((h.serviceBays hu.tracker hu.bays).finish (hin.congr hu.tracker) st fill hu.fills).congr hu.endTracker (hu.endBays.trans (State.finish_bays ..).symm)

end State.Work

end Sys2Proof.Machine

/-! What an abort leaves of the entries that it does not reach, and the services that abort a bay, take a request in or leave it to wait (R37, R51, R56, R118). -/

namespace Sys2Proof.Machine

/-! ### The entries that an abort does not reach (R62) -/

/-- From `s` to `u` the record of `e` is as it was, and `e` is listed where it was. -/
structure State.Spares (s u : State) (e : EntryId) : Prop where
  entry : u.tracker.entries[e] = s.tracker.entries[e]
  listed : e ∈ u.tracker.taken ↔ e ∈ s.tracker.taken

namespace State.Spares

variable {s u v : State} {e : EntryId}

theorem refl (s : State) (e : EntryId) : s.Spares s e := ⟨rfl, .rfl⟩

theorem trans (h : s.Spares u e) (hv : u.Spares v e) : s.Spares v e := ⟨hv.entry.trans h.entry, hv.listed.trans h.listed⟩

theorem of_touched {x : EntryId} (h : s.tracker.Touched u.tracker x) (hx : e ≠ x) : s.Spares u e := ⟨h.others e hx, h.mem_iff hx⟩

/-- Steps that each reach one entry spare another, where their own step leaves its record. -/
theorem foldl {step : State → EntryId → State} (htouch : ∀ (v : State) (x : EntryId), v.tracker.Touched (step v x).tracker x) {es : List EntryId}
    (hself : ∀ v : State, e ∈ es → v.tracker.entries[e] = s.tracker.entries[e] → step v e = v) : s.Spares (es.foldl step s) e := by
  have hstep (v : State) (x : EntryId) (hx : x ∈ es) (hv : s.Spares v e) : s.Spares (step v x) e := by
    by_cases hxe : e = x
    · subst hxe
      rw [hself v hx hv.entry]
      exact hv
    · exact hv.trans (.of_touched (htouch v x) hxe)
  have hall (l : List EntryId) (hl : ∀ x ∈ l, x ∈ es) (v : State) (hv : s.Spares v e) : s.Spares (l.foldl step v) e := by
    induction l generalizing v with
    | nil => exact hv
    | cons x l ih => exact ih (fun y hy => hl y (List.mem_cons_of_mem x hy)) (step v x) (hstep v x (hl x List.mem_cons_self) hv)
  exact hall es (fun _ => id) s (.refl s e)

theorem examineHolds {ds : List DomainId} (hs : s.tracker.entries[e].state = .held → s.tracker.entries[e].domain ∉ ds) : s.Spares (s.examineHolds ds) e :=
  .foldl (State.holdStep_touched ds) fun v _ hv => by
    have hnot {x : Translation} (hr : v.Releases ds e x) : False := hs (hv ▸ hr.held) (hv ▸ hr.asked)
    exact State.holdStep_cases (P := (· = v)) (fun _ => rfl) (fun _ hr _ _ => (hnot hr).elim) (fun _ hr _ _ => (hnot hr).elim) fun _ hr _ _ => (hnot hr).elim

theorem examineSyncs {ds : List DomainId} (hs : s.tracker.entries[e].state = .waiting → s.tracker.entries[e].domain ∉ ds) : s.Spares (s.examineSyncs ds) e where
  entry := State.examineSyncs_keeps ds s e fun hw => by
    rw [Bool.eq_false_iff, Ne, List.contains_iff_mem]
    exact hs hw
  listed := by rw [State.examineSyncs_tracker_taken]

theorem letGo {holds syncs : List DomainId} (hh : s.tracker.entries[e].state = .held → s.tracker.entries[e].domain ∉ holds)
    (hw : s.tracker.entries[e].state = .waiting → s.tracker.entries[e].domain ∉ syncs) : s.Spares (s.letGo holds syncs) e := by
  have hheld := examineHolds hh
  exact hheld.trans (examineSyncs (by rw [hheld.entry]; exact hw))

theorem markStale (b : BayId) (hs : s.tracker.entries[e].state ≠ .held) : s.Spares (s.markStale b) e :=
  .foldl (State.markStale_touched b) fun _ _ hv => if_neg fun hc => hs (hv ▸ eq_of_beq (Bool.and_eq_true_iff.1 hc).1)

theorem readyThese (es : List EntryId) (h : s.tracker.entries[e].unanswered = false) : s.Spares (s.readyThese es) e :=
  ⟨State.readyThese_keeps es s e h, by rw [State.readyThese_tracker_taken]⟩

theorem abortBay {b : BayId} (f : Bay → Bay) (st : Status) (hq : e ∉ s.bays[b].queue) (hh : s.tracker.entries[e].state ≠ .held) (hw : s.tracker.entries[e].state ≠ .waiting)
    (hu : s.tracker.entries[e].unanswered = false) : s.Spares (s.abortBay b f st) e := by
  have hcleared : s.Spares (s.mapBay b f) e := ⟨rfl, .rfl⟩
  have hstopped := hcleared.trans (foldl (es := s.bays[b].queue) (fun v x => v.stopEntry_touched x st) fun _ hm => absurd hm hq)
  have hmarked := hstopped.trans (markStale b (by rw [hstopped.entry]; exact hh))
  have hlet (holds syncs : List DomainId) := hmarked.trans (letGo (holds := holds) (syncs := syncs) (fun hs => absurd (hmarked.entry ▸ hs) hh) fun hs => absurd (hmarked.entry ▸ hs) hw)
  exact (hlet _ _).trans (readyThese _ (by rw [(hlet _ _).entry]; exact hu))

end State.Spares

/-- A bay reset does not reach the entry of the request that asks for it. -/
theorem State.InHand.resetBay_spares {s : State} {t : Taken} (hin : s.InHand t) {X : EntryId → Prop} (h : s.Filed X) (b : BayId) : s.Spares (s.resetBay b) t.entry :=
  .abortBay Bay.restart .bayReset ((h.entry t.entry).not_queued (by rw [hin.free]; rfl) b) (by rw [hin.free]; nofun) (by rw [hin.free]; nofun) (by rw [Entry.unanswered, hin.free]; rfl)

theorem State.InHand.spared {s u : State} {t : Taken} (h : s.InHand t) (hu : s.Spares u t.entry) : u.InHand t := by
  obtain ⟨ht, hf, hd, hp, hr⟩ := h
  exact ⟨hu.listed.2 ht, by rw [hu.entry]; exact hf, by rw [hu.entry]; exact hd, by rw [hu.entry]; exact hp, by rw [hu.entry]; exact hr⟩

namespace State.Work

variable {s u v : State} {k : Asked} {o : Open} {e : EntryId} {b : BayId}

/-- A RESET aborts the queue of its bay, and its request ends (R118). -/
theorem reset {t : Taken} (h : s.Work k (.taking (· = t.entry) fun _ => False)) (hin : s.InHand t) (b : BayId) : ((s.resetBay b).finishWith t .ok).Work k .nothing := by
  have haborted : (s.resetBay b).Work k (.taking (· = t.entry) fun _ => False) := by
    rw [← Open.withBay_self (o := .taking (· = t.entry) fun _ => False) (b := b) (st := .sound) rfl]
    exact h.abortBay (f := Bay.restart) (fun _ => id) (fun _ => id) rfl rfl (fun _ => Bay.restart_sound _) .bayReset
  exact haborted.finish (hin.spared (hin.resetBay_spares h.filed b)) .ok id fun x => ⟨x.flags, x.result, x.buffer, rfl⟩

/-- A SYNC waits, and is examined at once (R56). -/
theorem synced (h : s.Work k .nothing) {t : Taken} (hf : s.tracker.entries[t.entry].state = .free) (hk : t.request.kind = .sync) :
    ((s.waiting t).examine [] [t.request.domain]).Work k .nothing := by
  have hentry := s.waiting_entry t
  have hstate : (s.waiting t).tracker.entries[t.entry].state = .waiting := by rw [hentry]
  have hresponse : (s.waiting t).tracker.entries[t.entry].response = none := by rw [hentry]; rfl
  have hwork : (s.waiting t).Work k (.taking (fun _ => False) fun d => d ∈ [t.request.domain]) := by
    refine h.takes (e := t.entry) ⟨h.not_taken_of_free hf, s.waiting_taken t, fun x hx => State.waiting_other hx⟩ rfl (fun _ => False.elim) ?_ ?_ ?_ (fun _ => ?_) ?_ (.inl ⟨rfl, hresponse⟩)
    · refine { inUse := ?_, held := ?_, waiting := fun _ _ => ⟨?_, ?_, hresponse⟩, response := ?_, done := ?_, placed := ?_, queue := fun b => iff_of_false id ?_ }
      · rw [hstate]; nofun
      · rw [hstate]; nofun
      · rw [hentry]; exact hk
      · rw [hentry]; rfl
      · rw [hresponse]; nofun
      · rw [hstate]; nofun
      · rw [hstate]; nofun
      · rw [hstate]; rintro ⟨-, ha, -⟩; cases ha
    · rw [hstate]; nofun
    · rw [hstate]; nofun
    · rw [hentry]; exact List.mem_singleton.2 rfl
    · rw [hstate]; nofun
  exact of_none (o := .nothing) (hwork.silenced.examine trivial (hs := []) (ss := [t.request.domain]) (fun _ => False.elim) (fun _ => id) fun _ hd => nomatch hd)

/-! ### An admitted data request (R37, R47, R51) -/

/-- The new entry, QUEUED and with its place in the order, joins the queue of its bay. -/
theorem enqueue (h : s.Work k (.taking (· = e) fun _ => False)) (he : e ∈ s.tracker.taken) (hs : s.tracker.entries[e].state.atBay = true) {x : Translation}
    (hx : s.tracker.entries[e].xlat = some x) (htakes : s.bays[x.bay].takesRequests = true) : (s.mapBay x.bay (Bay.enqueue e)).Work k .nothing where
  filed := (h.filed.enqueue he hs hx rfl).out_congr fun y _ _ => ⟨fun hy => hy.2 hy.1, False.elim⟩
  obeys := h.obeys
  answering := h.answering
  answered := h.answered
  old := h.old
  bays hk c := by
    rw [State.mapBay_get]
    split
    · next hc => subst hc; exact Bay.Stands.enqueue (st := .sound) (h.bays hk _) htakes e
    · exact h.bays hk c

end State.Work

/-- A data request as it is admitted: HELD and in its place, or QUEUED and on its way to its bay. -/
theorem Entry.Filed.of_admitted {x : Entry} {listed out : Prop} (hs : x.state = .held ∧ ¬ out ∨ x.state = .queued ∧ out) (hx : x.xlat.isSome = true)
    (hr : x.response.isSome = true → x.posted = true) : x.Filed listed (fun _ => False) out where
  inUse _ _ := by rcases hs with ⟨hs, -⟩ | ⟨hs, -⟩ <;> rw [hs] <;> decide
  held _ hh := ⟨hx, (hs.resolve_right fun hq => by rw [hq.1] at hh; cases hh).2⟩
  waiting _ hw := by rcases hs with ⟨hs, -⟩ | ⟨hs, -⟩ <;> rw [hs] at hw <;> cases hw
  response _ h := .inl (hr h)
  done _ hd := by rcases hs with ⟨hs, -⟩ | ⟨hs, -⟩ <;> rw [hs] at hd <;> cases hd
  placed _ _ := hx
  queue b := iff_of_false id fun ⟨_, ha, ho, _⟩ => by
    rcases hs with ⟨hs, -⟩ | ⟨-, hout⟩
    · rw [hs] at ha; cases ha
    · exact ho hout

theorem State.admitData_takes {s : State} {t : Taken} (i : Fin 32) (hnew : t.entry ∉ s.tracker.taken) : s.tracker.Takes ((s.takeRequest t).admitData t i).tracker t.entry where
  new := hnew
  taken := by rw [State.admitData_eq, State.placeAdmitted_tracker, State.mapEntry_tracker_taken, State.admitting_taken]
  others x hx := by rw [State.admitData_eq, State.placeAdmitted_tracker, State.mapEntry_other hx, State.admitting_other i hx]

theorem State.Work.admitted {s : State} {k : Asked} (h : s.Work k .nothing) {t : Taken} (hf : s.tracker.entries[t.entry].state = .free) {i : Fin 32}
    (hi : (s.takeRequest t).checkData t.request = .admitted i) : ((s.takeRequest t).admitData t i).Work k .nothing := by
  let a := s.tables.apertures[i]
  let u := (s.takeRequest t).admitData t i
  have htakes : s.tracker.Takes u.tracker t.entry := State.admitData_takes i (h.not_taken_of_free hf)
  have hlisted : s.tracker.Listed := (h.filed.workSound (h.answering not_false) (h.answered not_false)).1
  have hholds := State.admitting_holds_iff (i := i) hf hlisted
  let y : Entry := { Entry.ofRequest t.request with xlat := some (translation t.request i a), posted := postedThrough t.request a }
  let st : EntryState := if ((s.takeRequest t).admitting t i).tracker.holds t.entry (translation t.request i a) then .held else .queued
  obtain ⟨r, q, hplaced, hposted, hopen⟩ := Entry.withPostedResponse_placed y s.tracker.nextSeq st
  have hentry : u.tracker.entries[t.entry] = { y with state := st, response := r, seq := q } := (s.admitData_entry t i).trans (by rw [State.admitting_entry]; exact hplaced)
  have hxlat : u.tracker.entries[t.entry].xlat = some (translation t.request i a) := by rw [hentry]
  have hresponse : u.tracker.entries[t.entry].response.isSome = true → u.tracker.entries[t.entry].posted = true := fun hr => by
    rw [hentry] at hr ⊢
    refine Decidable.byContradiction fun hp => ?_
    rw [show r = none from hopen (Bool.not_eq_true _ ▸ hp)] at hr
    cases hr
  have horder : u.tracker.order = s.tracker.order ∧ u.tracker.entries[t.entry].response = none
      ∨ u.tracker.order = s.tracker.order ++ [t.entry] ∧ u.tracker.entries[t.entry].response.isSome = true := by
    rw [hentry, State.admitData_order]
    split
    · next hp => exact .inr ⟨rfl, by rw [show r = _ from hposted hp]; rfl⟩
    · next hp => exact .inl ⟨rfl, hopen (Bool.not_eq_true _ ▸ hp)⟩
  have hdecision : ((s.takeRequest t).admitting t i).tracker.holds t.entry (translation t.request i a) = true ↔
      (u.tracker.strictHold t.entry (translation t.request i a) || u.tracker.earlierHeld t.entry a.bay) = true := by
    rw [hholds, Bool.or_eq_true, Tracker.strictHold_iff, htakes.earlierPosted_self, htakes.earlierHeld_self, hentry]
    rfl
  by_cases hheld : ((s.takeRequest t).admitting t i).tracker.holds t.entry (translation t.request i a) = true
  · have hstate : u.tracker.entries[t.entry].state = .held := by rw [hentry]; exact if_pos hheld
    refine h.takes htakes ?_ (fun _ => False.elim) (.of_admitted (.inl ⟨hstate, id⟩) (by rw [hxlat]; rfl) hresponse) ?_ (fun _ x hx hfirst => ?_) ?_ ?_ horder
    · rw [State.admitData_bays, if_pos hheld]
    · rw [hstate]; nofun
    · obtain rfl := Option.some.inj (hxlat.symm.trans hx)
      have hstops := hdecision.1 hheld
      rw [Bool.or_eq_true] at hstops
      exact hstops.resolve_right fun hh => by rw [show u.tracker.earlierHeld t.entry a.bay = false from hfirst] at hh; cases hh
    · rw [hstate]; nofun
    · rw [hstate]; nofun
  · have hstate : u.tracker.entries[t.entry].state = .queued := by rw [hentry]; exact if_neg hheld
    have hwork : State.Work { u with bays := s.bays } k (.taking (· = t.entry) fun _ => False) := by
      refine h.takes (u := { u with bays := s.bays }) htakes rfl (fun _ => id) (.of_admitted (.inr ⟨hstate, rfl⟩) (by rw [hxlat]; rfl) hresponse) (fun _ x hx => ?_) ?_ ?_ ?_ horder
      · obtain rfl := Option.some.inj (hxlat.symm.trans hx)
        rw [hdecision, Bool.or_eq_true, not_or] at hheld
        exact Bool.eq_false_iff.2 hheld.1
      · rw [hstate]; nofun
      · rw [hstate]; nofun
      · rw [hstate]; nofun
    refine (hwork.enqueue (htakes.mem_iff.2 (.inr rfl)) (by rw [hstate]; rfl) hxlat ((s.takeRequest t).checkData_takes t.request i hi)).congr rfl ?_
    rw [State.admitData_bays, if_neg hheld]
    rfl

/-! ### Every service -/

theorem State.Work.service {s u : State} {k : Asked} (h : s.Work k .nothing) {c : Instr} {t : Taken} (hn : s.nextTaken = some t) (hu : Service c t (s.takeRequest t) u) :
    u.Work k .nothing := by
  have hf := State.entry_free_of_nextTaken hn
  cases hu.sort with
  | admitted i hi hu => exact hu ▸ h.admitted hf hi
  | synced hk hu => exact hu ▸ h.synced hf hk
  | reset hc hr hu => exact hu ▸ (h.takeRequest hf).reset (s.takeRequest_inHand t) _
  | finishes v st fill hu => exact (h.takeRequest hf).finishes (s.takeRequest_inHand t) hu

end Sys2Proof.Machine

/-! The events of the link, the transmitter and the device reset keep the part's invariants (R40, R43, R64, R103), and the obligations O57 to O59. -/

namespace Sys2Proof.Machine

/-! ### The parts of a link reset (Table 3-4) -/

/-- The five things that a link reset can do to an entry. -/
theorem State.linkResetEntry_cases {P : State → Prop} {s : State} {e : EntryId} (hfree : s.tracker.entries[e].state = .free → P s)
    (hposted : s.tracker.entries[e].posted = true → (s.tracker.entries[e].state = .held ∨ s.tracker.entries[e].state.atBay = true) → P (s.dropResponse e))
    (hfreed : (s.tracker.entries[e].state = .waiting ∨ s.tracker.entries[e].state = .done ∨ s.tracker.entries[e].state = .held ∧ s.tracker.entries[e].posted = false) → P (s.freeEntry e))
    (hdropped : s.tracker.entries[e].posted = false → s.tracker.entries[e].state.atBay = true
      → (s.tracker.entries[e].state = .running → ∀ x, s.tracker.entries[e].xlat = some x → s.bays[x.bay].runs e = false) → P (s.dropEntry e))
    (hmarked : s.tracker.entries[e].posted = false → s.tracker.entries[e].state = .running → ∀ x, s.tracker.entries[e].xlat = some x → s.bays[x.bay].runs e = true
      → P (s.mapEntry e fun y => { y with discard := true })) : P (s.linkResetEntry e) := by
  have hat {st : EntryState} (hs : s.tracker.entries[e].state = st) (hst : st.atBay = true) : s.tracker.entries[e].state.atBay = true := by rw [hs]; exact hst
  have hdrop {st : EntryState} (hs : s.tracker.entries[e].state = st) (hst : st.atBay = true) (hne : st ≠ .running) (hp : ¬ s.tracker.entries[e].posted = true) : P (s.dropEntry e) :=
    hdropped (Bool.not_eq_true _ ▸ hp) (hat hs hst) fun hr => absurd (hs.symm.trans hr) hne
  unfold State.linkResetEntry
  dsimp only
  split
  · next hs => exact hfree hs
  · next hs =>
    split
    · next hp => exact hposted hp (.inl hs)
    · next hp => exact hfreed (.inr (.inr ⟨hs, Bool.not_eq_true _ ▸ hp⟩))
  · next hs =>
    split
    · next hp => exact hposted hp (.inr (hat hs rfl))
    · next hp => exact hdrop hs rfl nofun hp
  · next hs =>
    split
    · next hp => exact hposted hp (.inr (hat hs rfl))
    · next hp =>
      have hp' : s.tracker.entries[e].posted = false := Bool.not_eq_true _ ▸ hp
      unfold State.discardRunning
      split
      · next x hx =>
        split
        · next hr => exact hmarked hp' hs x hx hr
        · next hr =>
          refine hdropped hp' (hat hs rfl) fun _ y hy => ?_
          obtain rfl := Option.some.inj (hx.symm.trans hy)
          exact Bool.not_eq_true _ ▸ hr
      · next hx => exact hdropped hp' (hat hs rfl) fun _ y hy => nomatch hx.symm.trans hy
  · next hs =>
    split
    · next hp => exact hposted hp (.inr (hat hs rfl))
    · next hp => exact hdrop hs rfl nofun hp
  · next hs => exact hfreed (.inl hs)
  · next hs => exact hfreed (.inr (.inl hs))

theorem State.dropEntry_tracker (e : EntryId) (s : State) : (s.dropEntry e).tracker = (s.freeEntry e).tracker := by
  unfold State.dropEntry
  split <;> rfl

theorem State.dropResponse_same (e : EntryId) (s : State) : (s.dropResponse e).tracker.entries[e] = { s.tracker.entries[e] with response := none } :=
  State.mapEntry_same e (fun y => { y with response := none }) s

theorem State.linkResetEntry_touched (s : State) (e : EntryId) : s.tracker.Touched (s.linkResetEntry e).tracker e := by
  refine State.linkResetEntry_cases (P := fun v => s.tracker.Touched v.tracker e) (fun _ => .refl _ e) (fun _ _ => s.mapEntry_touched e _) (fun _ => s.freeEntry_touched e) (fun _ _ _ => ?_)
    fun _ _ _ _ _ => s.mapEntry_touched e _
  rw [State.dropEntry_tracker]
  exact s.freeEntry_touched e

theorem Bay.runs_eq_false {b : Bay} {e : EntryId} (h : b.runs e = false) (r : UnitRun) (hr : b.unit = some r) : r.entry ≠ e := fun he => by
  rw [Bay.runs, hr] at h
  exact Bool.eq_false_iff.1 h (beq_iff_eq.2 he)

/-- A link reset examines all that there is, and settles every bay. -/
def Open.relinking : Open := { Open.nothing with holds := fun _ => True, syncs := fun _ => True, bays := fun _ => .going, disorder := True, silent := True }

namespace State.Work

variable {s u v : State} {k : Asked} {o : Open} {e : EntryId} {b : BayId}

/-- The response of an entry that is not DONE is removed, from it and from the response order. -/
theorem dropResponse (h : s.Work k o) (hs : s.tracker.entries[e].state ≠ .done) (ht : s.tracker.Touched u.tracker e) (htaken : u.tracker.taken = s.tracker.taken)
    (he : u.tracker.entries[e] = { s.tracker.entries[e] with response := none }) (hb : u.bays = s.bays) (ha : ¬ o.disorder → u.tracker.Answering) : u.Work k o where
  filed := by
    have hentry := h.filed.entry e
    refine h.filed.touch hb ht ?_ fun b r hr hre => ?_
    · rw [he, htaken]
      exact { inUse := hentry.inUse, held := hentry.held, waiting := fun hl hw => (hentry.waiting hl hw).imp_right (And.imp_right fun _ => rfl), response := fun _ hr => by cases hr
              done := fun _ hd => absurd hd hs, placed := hentry.placed, queue := hentry.queue }
    · rw [he]
      exact hre ▸ (h.filed.unit b r hr).2
  obeys := (Tracker.Alike.of_touched ht htaken (by rw [he]; exact ⟨rfl, rfl, rfl, .inl rfl⟩)).obeys h.obeys
  answering := ha
  bays := hb ▸ h.bays
  answered hn x hx hd := by
    by_cases hxe : x = e
    · subst hxe
      rw [he] at hd
      exact absurd hd hs
    · rw [ht.others x hxe] at hd ⊢
      exact h.answered hn x (htaken ▸ hx) hd
  old x hx := (h.old x hx).imp (fun hm => htaken ▸ hm) fun hf => by
    by_cases hxe : x = e
    · subst hxe; rw [he]; exact hf
    · rw [ht.others x hxe]; exact hf

/-! ### The link reset (R40, R64) -/

theorem dropEntry (h : s.Work k .relinking) (he : e ∈ s.tracker.taken) (hs : s.tracker.entries[e].state.atBay = true)
    (hrun : s.tracker.entries[e].state = .running → ∀ x, s.tracker.entries[e].xlat = some x → s.bays[x.bay].runs e = false) : (s.dropEntry e).Work k .relinking := by
  obtain ⟨x, hx⟩ := Option.isSome_iff_exists.1 ((h.filed.entry e).placed he hs)
  have hqueue : e ∈ s.bays[x.bay].queue := ((h.filed.entry e).queue x.bay).2 ⟨he, hs, id, x, hx, rfl⟩
  have hunit (r : UnitRun) (hr : s.bays[x.bay].unit = some r) : r.entry ≠ e := by
    by_cases hs' : s.tracker.entries[e].state = .running
    · exact Bay.runs_eq_false (hrun hs' x hx) r hr
    · exact h.filed.unit_ne hs' x.bay r hr
  have hout := h.dequeue hqueue hunit (.inl rfl)
  have hfreed := hout.freeEntry (e := e) trivial he trivial (fun b hb => hout.filed.not_out hb (.inr rfl)) (.inl trivial)
  have hdrop : s.dropEntry e = (s.dequeue x.bay e).freeEntry e := by
    unfold State.dropEntry
    rw [hx]
  rw [hdrop]
  refine hfreed.out_congr fun y hy _ => or_iff_left fun hye => ?_
  rw [State.freeEntry_taken, mem_filter_ne] at hy
  exact hy.2 hye

theorem linkResetEntry (h : s.Work k .relinking) (he : e ∈ s.tracker.taken) : (s.linkResetEntry e).Work k .relinking := by
  have hnot {st : EntryState} (hs : s.tracker.entries[e].state = st) (hst : st.atBay = false) (b : BayId) : e ∉ s.bays[b].queue := (h.filed.entry e).not_queued (by rw [hs]; exact hst) b
  refine State.linkResetEntry_cases (P := fun v => v.Work k .relinking) (fun _ => h) (fun _ hs => ?_) (fun hs => ?_) (fun _ hs hrun => h.dropEntry he hs hrun)
    fun _ _ _ _ _ => h.mapEntry_congr (fun y => { y with discard := true }) rfl rfl rfl rfl rfl rfl
  · refine h.dropResponse (fun hd => ?_) (s.mapEntry_touched e _) rfl (s.dropResponse_same e) rfl fun hn => absurd trivial hn
    rw [hd] at hs
    exact absurd hs (by decide)
  · refine h.freeEntry trivial he trivial (fun b => ?_) (.inl trivial)
    rcases hs with hs | hs | ⟨hs, -⟩
    · exact hnot hs rfl b
    · exact hnot hs rfl b
    · exact hnot hs rfl b

/-- What a link reset leaves of an entry has no response. -/
theorem linkResetEntry_response (h : s.Work k .relinking) (he : e ∈ s.tracker.taken) : (s.linkResetEntry e).tracker.entries[e].response = none := by
  refine State.linkResetEntry_cases (P := fun v => v.tracker.entries[e].response = none) (fun hs => absurd hs ((h.filed.entry e).inUse he id)) (fun _ _ => ?_) (fun _ => ?_) (fun _ _ _ => ?_)
    fun hp hs _ _ _ => ?_
  · rw [State.dropResponse_same]
  · rw [State.freeEntry_same]; rfl
  · rw [State.dropEntry_tracker, State.freeEntry_same]; rfl
  · rw [State.mapEntry_same]
    show s.tracker.entries[e].response = none
    exact (h.filed.entry e).response_none he (by rw [hs]; nofun) hp

/-- Every entry has been taken through Table 3-4, and no response is left. -/
theorem relinkEntries (h : s.Work k .relinking) :
    (s.tracker.taken.foldl (fun s e => s.linkResetEntry e) s).Work k .relinking
      ∧ ∀ e ∈ (s.tracker.taken.foldl (fun s e => s.linkResetEntry e) s).tracker.taken, (s.tracker.taken.foldl (fun s e => s.linkResetEntry e) s).tracker.entries[e].response = none :=
  State.foldl_pass (K := fun v => v.Work k .relinking) (C := fun t e => t.entries[e].response = none) (step := fun v e => v.linkResetEntry e) h.filed.taken h
    (fun _ _ _ hx _ _ hc => (congrArg Entry.response hx).trans hc) State.linkResetEntry_touched (fun _ _ hv he => hv.linkResetEntry he) fun _ _ hv he => hv.linkResetEntry_response he

/-- The response order is emptied where no response is left. -/
theorem orderEmptied (h : s.Work k .relinking) (hr : ∀ e ∈ s.tracker.taken, s.tracker.entries[e].response = none) :
    State.Work { s with tracker := { s.tracker with order := [] } } k { Open.relinking with disorder := False } where
  filed := h.filed.touch (e := 0) rfl ⟨fun _ _ => rfl, .inl rfl⟩ (h.filed.entry 0) fun b r hr hre => hre ▸ (h.filed.unit b r hr).2
  obeys := (Tracker.Alike.mk rfl fun _ => .refl _ : s.tracker.Alike { s.tracker with order := [] }).obeys h.obeys
  answering _ := ⟨List.nodup_nil, fun e => iff_of_false List.not_mem_nil fun ⟨he, hs⟩ => by
    rw [show ({ s.tracker with order := [] } : Tracker).entries[e].response = none from hr e he] at hs; cases hs⟩
  bays := h.bays
  answered hn := absurd trivial hn
  old := h.old

theorem trackerLinkReset (h : s.Work k .relinking) : s.trackerLinkReset.Work k { Open.nothing with bays := fun _ => .going } := by
  obtain ⟨hentries, hnone⟩ := h.relinkEntries
  exact (hentries.orderEmptied hnone).examine trivial (hs := allDomains) (ss := allDomains) (fun d _ => mem_allDomains d) (fun d _ => mem_allDomains d) fun _ => id

/-- Every bay settles. -/
theorem settleAll (h : s.Work k { Open.nothing with bays := fun _ => .going }) : s.settleAll.Work k .nothing := by
  have hpassed := foldl_passes (f := fun (v : State) (b : BayId) => v.settle b) (P := fun passed v => v.Work k { Open.nothing with bays := fun c => if c ∈ passed then .sound else .going })
    allBays (s := s) h fun passed b rest v hl hv => ?_
  · have hall : (fun c : BayId => if c ∈ allBays then Standing.sound else .going) = fun _ => Standing.sound := funext fun c => if_pos (by revert c; decide)
    simp only [hall] at hpassed
    exact hpassed
  · have hnot : b ∉ passed := fun hm => by
      have hn : (passed ++ b :: rest).Nodup := hl ▸ (by decide : allBays.Nodup)
      exact (List.nodup_append.1 hn).2.2 b hm b List.mem_cons_self rfl
    have hsettled := hv.settle (b := b) (if_neg hnot)
    have hbays : (fun c : BayId => if c = b then Standing.sound else if c ∈ passed then .sound else .going) = fun c => if c ∈ passed ++ [b] then .sound else .going := funext fun c => by
      by_cases hc : c = b
      · subst hc
        rw [if_pos rfl, if_pos (List.mem_append_right _ List.mem_cons_self)]
      · rw [if_neg hc]
        simp only [List.mem_append, List.mem_singleton, hc, or_false]
    rw [← hbays]
    exact hsettled

/-- A link reset begins with everything to examine. -/
theorem cutOff (h : s.Work k .nothing) : State.Work { s with uplink := s.uplink.lost, tables := { s.tables with lastServed := 7 } } k .relinking := by
  have hopen : s.Work k .relinking :=
    { filed := h.filed, obeys := h.obeys.mono (fun _ => False.elim) fun _ => False.elim, answering := fun hn => absurd trivial hn, bays := fun hk b => Bay.Sound.going (h.bays hk b)
      answered := fun hn => absurd trivial hn, old := h.old }
  exact hopen.congr rfl rfl

theorem linkReset (h : s.Work k .nothing) : s.linkReset.Work k .nothing := by
  refine h.cutOff.trackerLinkReset.settleAll.congr ?_ ?_
  · exact State.reexamineAll_tracker ..
  · exact State.reexamineAll_bays ..

/-! ### The transmitter (R43, R48, R60) -/

theorem takeResponse (h : s.Work k .nothing) {rest : List EntryId} (ho : s.tracker.order = e :: rest) : (s.takeResponse e).Work k .nothing := by
  obtain ⟨hn, hiff⟩ := h.answering not_false
  obtain ⟨he, hr⟩ := (hiff e).1 (by rw [ho]; exact List.mem_cons_self)
  have hrest : e ∉ rest := by
    rw [ho] at hn
    exact (List.nodup_cons.1 hn).1
  by_cases hd : s.tracker.entries[e].state = .done
  · have hfreed : (s.freeEntry e).Work k { Open.nothing with syncs := fun d => d ∈ [s.tracker.entries[e].domain], silent := True } :=
      (h.silenced.mono (fun _ => id) fun _ => False.elim).freeEntry trivial he (List.mem_singleton.2 rfl)
        (fun b => (h.filed.entry e).not_queued (by rw [hd]; rfl) b) (.inr ⟨Entry.postedOpen_of_done hd, by rw [hd]; nofun⟩)
    have horder : s.tracker.order.tail.filter (· != e) = s.tracker.order.filter (· != e) := by
      rw [ho, List.filter_cons_of_neg (by simp)]
      rfl
    have hfreed' := hfreed.congr (u := State.freeEntry e { s with tracker := { s.tracker with order := s.tracker.order.tail } }) (by
      show ({ (s.freeEntry e).tracker with order := s.tracker.order.tail.filter (· != e) } : Tracker) = _
      rw [horder]
      rfl) rfl
    rw [State.takeResponse_of_done hd]
    exact hfreed'.examine trivial (hs := []) (ss := [s.tracker.entries[e].domain]) (fun _ => False.elim) (fun _ => id) fun _ hm => nomatch hm
  · have htouched : s.tracker.Touched (State.dropResponse e { s with tracker := { s.tracker with order := s.tracker.order.tail } }).tracker e :=
      ⟨fun x hx => State.mapEntry_other hx _ _, .inl rfl⟩
    have hentry := State.dropResponse_same e { s with tracker := { s.tracker with order := s.tracker.order.tail } }
    have horder : (State.dropResponse e { s with tracker := { s.tracker with order := s.tracker.order.tail } }).tracker.order = rest := by
      show s.tracker.order.tail = rest
      rw [ho]
      rfl
    rw [State.takeResponse_of_open hd]
    refine h.dropResponse hd htouched rfl hentry rfl fun _ => ⟨?_, fun x => ?_⟩
    · rw [horder]
      rw [ho] at hn
      exact (List.nodup_cons.1 hn).2
    · rw [horder]
      by_cases hx : x = e
      · subst hx
        exact iff_of_false hrest fun ⟨_, hs⟩ => by rw [hentry] at hs; cases hs
      · rw [htouched.others x hx]
        have hx' := hiff x
        rw [ho, List.mem_cons, or_iff_right hx] at hx'
        exact hx'

theorem transmit (h : s.Work k .nothing) : s.transmit.Work k .nothing := by
  unfold State.transmit
  split
  · exact h.congr rfl rfl
  · split
    · exact h.congr rfl rfl
    · split
      · next e rest ho => exact takeResponse (h.congr (u := s.send s.tracker.entries[e].responseWords) rfl rfl) ho
      · exact h

/-! ### The receiver and the device reset (R103, R159) -/

theorem takePacket (h : s.Work k .nothing) (words : List Word) : (s.takePacket words).Work k .nothing := by
  unfold State.takePacket
  split
  · split
    · unfold State.intakeRequest
      split
      · exact h.congr rfl rfl
      · exact h.congr rfl rfl
    · exact h.congr rfl rfl
  · exact h.congr (State.offer_tracker ..) (State.offer_bays ..)

end State.Work

/-- The inputs of a bay are as they are, whatever its reset. -/
theorem Bay.powerOn_sound (b : Bay) : b.powerOn.Sound := by
  have hinputs : Bay.Sound { Bay.initial with contactFirst := b.contactFirst, contactSecond := b.contactSecond, railGood := b.railGood, moduleReady := b.moduleReady } := by
    obtain ⟨hout, ⟨hid, hpoll, htimer, hdepth, hcause, hdrain, hline, -⟩, hbus, hsettled, hlanes⟩ := Bay.sound_initial
    exact ⟨hout, ⟨hid, hpoll, htimer, hdepth, hcause, hdrain, hline, nofun⟩, hbus, hsettled, hlanes⟩
  unfold Bay.powerOn
  dsimp only
  split
  · exact hinputs.enterSeating_sound rfl
  · exact hinputs

theorem Bay.powerOn_queue (b : Bay) : b.powerOn.queue = [] ∧ b.powerOn.unit = none := by
  unfold Bay.powerOn
  dsimp only
  split <;> exact ⟨rfl, rfl⟩

/-- What a command leaves of the part after a power-on reset. -/
theorem State.work_powerOn (s : State) (k : Asked) : State.Work { State.reset with bays := tabulate 8 fun b => s.bays[b].powerOn, pending := s.pending } k .nothing := by
  have hbay (b : BayId) : (tabulate 8 fun b => s.bays[b].powerOn)[b] = s.bays[b].powerOn := tabulate_get 8 _ b
  refine { filed := ⟨List.nodup_nil, fun b => ?_, fun e => .of_unlisted List.not_mem_nil fun b => ?_, fun b r hr => ?_⟩, obeys := ⟨fun _ => nofun, fun _ _ _ => nofun, fun _ _ _ => nofun⟩
           answering := fun _ => State.reset_workSound.answering, bays := fun _ b => ?_, answered := fun _ => nofun, old := fun _ => False.elim }
  · show (tabulate 8 fun b => s.bays[b].powerOn)[b].queue.Nodup
    rw [hbay, s.bays[b].powerOn_queue.1]
    exact List.nodup_nil
  · show ¬ e ∈ (tabulate 8 fun b => s.bays[b].powerOn)[b].queue
    rw [hbay, s.bays[b].powerOn_queue.1]
    exact List.not_mem_nil
  · have hr' : (tabulate 8 fun b => s.bays[b].powerOn)[b].unit = some r := hr
    rw [hbay, s.bays[b].powerOn_queue.2] at hr'
    cases hr'
  · show (tabulate 8 fun b => s.bays[b].powerOn)[b].Sound
    rw [hbay]
    exact s.bays[b].powerOn_sound

/-! ### Every command (O57 to O59) -/

theorem State.Work.exec_ofLink {s u : State} {k : Asked} (h : s.Work k .nothing) {c : Instr} (hc : commandOfLink c = true) (hu : exec c s = .next u) : u.Work k .nothing := by
  cases c with
  | powerOnReset => obtain rfl := Host.Outcome.next.inj hu; exact s.work_powerOn k
  | linkGained => cases hu; exact h.congr rfl rfl
  | linkLost =>
    simp only [exec, execLinkLost] at hu
    split at hu
    · obtain rfl := Host.Outcome.next.inj hu; exact h.linkReset
    · cases hu; exact h
  | packetReceived words => exact State.Work.of_guarded h (fun _ => h.takePacket words) hu
  | transmitChoice =>
    simp only [exec, execTransmitChoice] at hu
    split at hu
    · obtain rfl := Host.Outcome.next.inj hu; exact h.transmit
    · cases hu; exact h
  | _ => cases hc

theorem State.Work.exec {s u : State} {k : Asked} (h : s.Work k .nothing) {c : Instr} (hu : exec c s = .next u) : u.Work k .nothing := by
  rcases command_sorts c with hc | hc | hc
  · exact h.exec_ofLink hc hu
  · exact h.exec_ofBay hc hu
  · rcases exec_arbiter_cases hc hu with rfl | ⟨t, hn, -, hservice⟩
    · exact h
    · exact h.service hn hservice

/-- Between events, what is asked for holds. -/
theorem State.WorkSound.work {s : State} (h : s.WorkSound) {k : Asked} (hstrict : k.strict → s.tracker.StrictOrder) (hexamined : k.examined → s.tracker.Examined)
    (hsound : k.sound → s.BaysSound) : s.Work k .nothing where
  filed := h.filed
  obeys := ⟨hstrict, fun hk d _ => (hexamined hk d).2, fun hk d _ => (hexamined hk d).1⟩
  answering _ := h.answering
  bays hk b := hsound hk b
  answered _ _ := h.response_of_done
  old _ := False.elim

theorem State.work_of_step {s u : State} {k : Asked} (h : s.Work k .nothing) (hu : step s = .next u) : u.Work k .nothing :=
  step_kept (P := fun v => v.Work k .nothing) (fun _ _ hv => hv.congr rfl rfl) (fun _ _ _ hv hw => hv.exec hw) h hu

theorem State.Work.workSound {s : State} {k : Asked} (h : s.Work k .nothing) : s.WorkSound := h.filed.workSound (h.answering not_false) (h.answered not_false)

/-- Settles O57, with the strict order asked for beside the agreement of the lists. -/
theorem trackerStaysInOrder : Obligations.TrackerStaysInOrder := fun _ _ hwork ⟨_, hstrict⟩ hu => by
  have hend := State.work_of_step (hwork.work (k := ⟨True, False, False⟩) (fun _ => hstrict) False.elim False.elim) hu
  exact ⟨hend.workSound.1, hend.obeys.strict trivial⟩

/-- Settles O58, with the examinations asked for where they held before. -/
theorem workStaysSound : Obligations.WorkStaysSound := fun s _ hwork hu => by
  have hend := State.work_of_step (hwork.work (k := ⟨False, s.tracker.Examined, False⟩) False.elim id False.elim) hu
  exact ⟨hend.workSound, fun hexamined d => ⟨hend.obeys.syncs hexamined d id, hend.obeys.holds hexamined d id⟩⟩

/-- Settles O59, with the soundness of the bays asked for. -/
theorem baysStaySound : Obligations.BaysStaySound := fun _ _ hwork hsound hu =>
  (State.work_of_step (hwork.work (k := ⟨False, False, True⟩) False.elim False.elim fun _ => hsound) hu).bays trivial

end Sys2Proof.Machine

/-! One pass over the order taken, seen from one entry and from one bay: what the examinations and the end of an entry make of each record (R46, R49, R54, R56, R58), and what arrives at a bay (R42, R53). -/

namespace Sys2Proof.Machine

/-! ### One pass, seen from one entry -/

/-- In a pass by steps that each reach one entry, an entry is as it was until its own step and as that step leaves it from then on. -/
theorem State.foldl_entry {K : State → Prop} {step : State → EntryId → State} {s : State} {es : List EntryId} (hn : es.Nodup) (hs : K s)
    (htouch : ∀ (v : State) (x : EntryId), v.tracker.Touched (step v x).tracker x) (hkeep : ∀ v : State, K v → ∀ x ∈ es, K (step v x)) {e : EntryId} (he : e ∈ es) :
    ∃ (v : State) (after : List EntryId), K v ∧ s.Spares v e ∧ es.foldl step s = after.foldl step (step v e) ∧ (step v e).Spares (es.foldl step s) e := by
  obtain ⟨before, after, rfl⟩ := List.append_of_mem he
  have hnot : e ∉ before := fun hm => (List.nodup_append.1 hn).2.2 e hm e List.mem_cons_self rfl
  have hnot' : e ∉ after := (List.nodup_cons.1 (List.nodup_append.1 hn).2.1).1
  refine ⟨before.foldl step s, after, ?_, .foldl htouch fun _ hm => absurd hm hnot, by rw [List.foldl_append, List.foldl_cons], ?_⟩
  · exact List.foldlRecOn before step hs fun v hv x hx => hkeep v hv x (List.mem_append_left _ hx)
  · rw [List.foldl_append, List.foldl_cons]
    exact .foldl htouch fun _ hm => absurd hm hnot'

/-- A pass by steps that each reach one entry, one step after the other: each step finds its own entry as it was at the start. -/
theorem State.foldl_untouched {step : State → EntryId → State} {s : State} {es : List EntryId} (hn : es.Nodup)
    (htouch : ∀ (v : State) (x : EntryId), v.tracker.Touched (step v x).tracker x) {P : List EntryId → State → Prop} (h0 : P [] s)
    (hstep : ∀ passed e v, e ∈ es → e ∉ passed → s.Spares v e → P passed v → P (passed ++ [e]) (step v e)) : P es (es.foldl step s) := by
  refine (foldl_passes (P := fun passed v => (∀ x, x ∉ passed → s.Spares v x) ∧ P passed v) es ⟨fun x _ => .refl s x, h0⟩ ?_).2
  rintro passed e rest v rfl ⟨hrest, hv⟩
  have hnot : e ∉ passed := fun hm => (List.nodup_append.1 hn).2.2 e hm e List.mem_cons_self rfl
  refine ⟨fun x hx => ?_, hstep passed e v (List.mem_append_right _ List.mem_cons_self) hnot (hrest e hnot) hv⟩
  rw [List.mem_append, List.mem_singleton, not_or] at hx
  exact (hrest x hx.1).trans (.of_touched (htouch v e) hx.2)

/-! ### What the end of its work leaves of an entry (R49, R58) -/

/-- The posted entry `e`, whose record was `y`, has ended with `st`: it is DONE while its response is still ready, and freed otherwise. -/
def Tracker.PostedEnd (t : Tracker) (e : EntryId) (y : Entry) (st : Status) : Prop :=
  y.response.isSome = true ∧ t.entries[e] = { y with state := .done, status := st } ∨ y.response = none ∧ t.entries[e] = Entry.blank ∧ e ∉ t.taken

/-- The entry `e`, whose record was `y`, has been stopped with `st`; its response is not ready yet where it is one that is answered. -/
def Tracker.Stopped (t : Tracker) (e : EntryId) (y : Entry) (st : Status) : Prop :=
  y.posted = true ∧ t.PostedEnd e y st ∨ y.posted = false ∧ y.discard = true ∧ t.entries[e] = Entry.blank ∧ e ∉ t.taken
    ∨ y.posted = false ∧ y.discard = false ∧ t.entries[e] = { y with state := .done, status := st }

theorem State.freeEntry_not_taken (e : EntryId) (s : State) : e ∉ (s.freeEntry e).tracker.taken := by
  rw [State.freeEntry_taken, mem_filter_ne]
  exact fun hm => hm.2 rfl

theorem State.endPosted_postedEnd (e : EntryId) (st : Status) (s : State) : (s.endPosted e st).tracker.PostedEnd e s.tracker.entries[e] st := by
  cases hr : s.tracker.entries[e].response with
  | some r =>
    obtain ⟨hentry, -⟩ := State.endPosted_of_response (e := e) (st := st) (s := s) (by rw [hr]; rfl)
    exact .inl ⟨by rw [hr]; rfl, hentry⟩
  | none =>
    obtain ⟨hentry, htaken, -⟩ := State.endPosted_of_no_response (st := st) hr
    exact .inr ⟨hr, hentry, by rw [htaken, mem_filter_ne]; exact fun hm => hm.2 rfl⟩

theorem State.stopEntry_stopped (e : EntryId) (st : Status) (s : State) : (s.stopEntry e st).tracker.Stopped e s.tracker.entries[e] st :=
  State.stopEntry_cases (P := fun v => v.tracker.Stopped e s.tracker.entries[e] st) (fun hp => .inl ⟨hp, s.endPosted_postedEnd e st⟩)
    (fun hp hd => .inr (.inl ⟨hp, hd, State.freeEntry_same e s, s.freeEntry_not_taken e⟩)) fun hp hd => .inr (.inr ⟨hp, hd, s.goDone_same e st⟩)

theorem Tracker.PostedEnd.spared {s u : State} {e : EntryId} {y : Entry} {st : Status} (h : s.tracker.PostedEnd e y st) (hu : s.Spares u e) : u.tracker.PostedEnd e y st := by
  rcases h with ⟨hr, he⟩ | ⟨hr, he, hl⟩
  · exact .inl ⟨hr, hu.entry.trans he⟩
  · exact .inr ⟨hr, hu.entry.trans he, mt hu.listed.1 hl⟩

theorem Tracker.Stopped.spared {s u : State} {e : EntryId} {y : Entry} {st : Status} (h : s.tracker.Stopped e y st) (hu : s.Spares u e) : u.tracker.Stopped e y st := by
  rcases h with ⟨hp, h⟩ | ⟨hp, hd, he, hl⟩ | ⟨hp, hd, he⟩
  · exact .inl ⟨hp, h.spared hu⟩
  · exact .inr (.inl ⟨hp, hd, hu.entry.trans he, mt hu.listed.1 hl⟩)
  · exact .inr (.inr ⟨hp, hd, hu.entry.trans he⟩)

/-- A posted entry that has ended is not one to be answered. -/
theorem Tracker.PostedEnd.unanswered {t : Tracker} {e : EntryId} {y : Entry} {st : Status} (h : t.PostedEnd e y st) : t.entries[e].unanswered = false := by
  rcases h with ⟨hr, he⟩ | ⟨-, he, -⟩
  · rw [he]
    exact Entry.unanswered_eq_false _ fun _ _ => hr
  · rw [he]; rfl

theorem Tracker.PostedEnd.ended {t : Tracker} {e : EntryId} {y : Entry} {st : Status} (h : t.PostedEnd e y st) (hp : y.posted = true) : t.Ended e y st := by
  refine ⟨fun hn => absurd (hp.symm.trans hn) (by decide), fun _ hr => ?_, fun hr _ => ?_⟩
  · rcases h with ⟨-, he⟩ | ⟨hr', -⟩
    · exact he
    · rw [hr'] at hr; cases hr
  · rcases h with ⟨hr', -⟩ | ⟨-, he, hl⟩
    · rw [hr hp] at hr'; cases hr'
    · exact ⟨by rw [he]; rfl, hl⟩

/-- A non-posted entry that has gone DONE without its response, when the responses of `es` have been made ready. -/
theorem State.readyThese_ended {s : State} {e : EntryId} {y : Entry} {st : Status} (he : s.tracker.entries[e] = { y with state := .done, status := st }) (hp : y.posted = false)
    (hd : y.discard = false) (hr : y.response = none) {es : List EntryId} (hes : e ∈ es) : (s.readyThese es).tracker.Ended e y st := by
  have hu : s.tracker.entries[e].unanswered = true := by rw [he, Entry.unanswered, hp, hr]; rfl
  obtain ⟨n, hn⟩ := State.readyThese_answers hes hu
  refine ⟨fun _ _ => ⟨n, ?_⟩, fun hn => absurd (hp.symm.trans hn) (by decide), fun _ hd' => absurd ((hd' hp).symm.trans hd) (by decide)⟩
  rw [hn, he]
  rfl

/-- What has been stopped has ended when the responses have been made ready. -/
theorem Tracker.Stopped.ended {s : State} {e : EntryId} {y : Entry} {st : Status} (h : s.tracker.Stopped e y st) (hr : y.posted = false → y.response = none) {es : List EntryId}
    (hes : y.posted = false → y.discard = false → e ∈ es) : (s.readyThese es).tracker.Ended e y st := by
  rcases h with ⟨hp, h⟩ | ⟨hp, hd, he, hl⟩ | ⟨hp, hd, he⟩
  · exact (h.spared (.readyThese es h.unanswered)).ended hp
  · have hspared : s.Spares (s.readyThese es) e := .readyThese es (by rw [he]; rfl)
    exact ⟨fun _ hn => absurd (hd.symm.trans hn) (by decide), fun hn => absurd (hp.symm.trans hn) (by decide), fun _ _ =>
      ⟨by rw [hspared.entry, he]; rfl, mt hspared.listed.1 hl⟩⟩
  · exact State.readyThese_ended he hp hd (hr hp) (hes hp hd)

/-! ### What the examination of the hold lists leaves of an entry (R53, R54) -/

/-- What the examination of the hold lists of `ds`, begun in `s`, has made of the HELD entry `e` in `v`. -/
inductive State.HeldOutcome (ds : List DomainId) (s v : State) (e : EntryId) : Prop
  | kept (h : s.Spares v e)
  | placed (x : Translation) (hr : s.tracker.entries[e].state = .held ∧ s.tracker.entries[e].domain ∈ ds) (hx : s.tracker.entries[e].xlat = some x)
      (hs : s.tracker.entries[e].stale = false) (ht : s.bays[x.bay].takesRequests = true) (h : v.tracker.entries[e] = { s.tracker.entries[e] with state := .queued })
      (hq : e ∈ v.bays[x.bay].queue)
  | failed (x : Translation) (hr : s.tracker.entries[e].state = .held ∧ s.tracker.entries[e].domain ∈ ds) (hx : s.tracker.entries[e].xlat = some x)
      (hs : s.tracker.entries[e].stale = true ∨ s.bays[x.bay].takesRequests = false)
      (h : s.tracker.entries[e].posted = true ∧ v.tracker.PostedEnd e s.tracker.entries[e] .bayNotReady
        ∨ s.tracker.entries[e].posted = false ∧ e ∈ v.tracker.taken
          ∧ v.tracker.entries[e] = { s.tracker.entries[e] with state := .done, status := .bayNotReady })

/-! ### The bays in the examination of the hold lists -/

theorem Bay.startWake_states {b : Bay} (h : b.drainRequested = false) : (b.startWake.state = .online ∨ b.startWake.state = .waking) ∧ b.startWake.drainRequested = false := by
  rw [Bay.startWake_eq]
  split
  · unfold Bay.wakeEnds
    dsimp only
    rw [if_neg (by rw [show (Bay.enter .online (b.enter .waking)).drainRequested = b.drainRequested from rfl, h]; decide)]
    exact ⟨.inl rfl, h⟩
  · exact ⟨.inr rfl, h⟩

/-- A bay that takes requests still does when one has arrived. -/
theorem Bay.enqueue_takesRequests {b : Bay} (h : b.takesRequests = true) (e : EntryId) : (b.enqueue e).takesRequests = true := by
  obtain ⟨hs, hd⟩ := (b.takesRequests_iff).1 h
  have hwake {v : Bay} (hvs : v.state = b.state) (hvd : v.drainRequested = b.drainRequested) : v.wakeCheck.takesRequests = true := by
    unfold Bay.wakeCheck
    split
    · obtain ⟨hstate, hdrain⟩ := Bay.startWake_states (hvd.trans hd)
      exact (Bay.takesRequests_iff _).2 ⟨hstate.elim .inl fun hw => .inr (.inr (.inr hw)), hdrain⟩
    · exact (v.takesRequests_iff).2 ⟨hvs ▸ hs, hvd.trans hd⟩
  rw [Bay.enqueue_eq]
  split
  · exact hwake rfl rfl
  · exact hwake rfl rfl

/-- The arrivals of `joined`, one after the other. -/
def Bay.arrivals (b : Bay) (joined : List EntryId) : Bay := joined.foldl (fun b e => b.enqueue e) b

theorem Bay.arrivals_queue (joined : List EntryId) (b : Bay) : (b.arrivals joined).queue = b.queue ++ joined := by
  induction joined generalizing b with
  | nil => exact (List.append_nil _).symm
  | cons e es ih => rw [show b.arrivals (e :: es) = (b.enqueue e).arrivals es from rfl, ih, Bay.enqueue_queue, List.append_assoc]; rfl

theorem Bay.arrivals_append (b : Bay) (joined : List EntryId) (e : EntryId) : b.arrivals (joined ++ [e]) = (b.arrivals joined).enqueue e := by
  rw [Bay.arrivals, List.foldl_append]
  rfl

theorem Bay.arrivals_receives {b : Bay} (hsound : b.state = .parked → b.Sound) (joined : List EntryId) : b.Receives joined (b.arrivals joined) := by
  refine foldl_passes (P := fun es v => b.Receives es v) joined b.receives_nil fun es e _ v _ hv => ?_
  exact hv.enqueue hsound e

theorem Bay.arrivals_takesRequests {b : Bay} {joined : List EntryId} (h : joined ≠ [] → b.takesRequests = true) : (b.arrivals joined).takesRequests = b.takesRequests := by
  by_cases hj : joined = []
  · rw [hj]; rfl
  · rw [h hj]
    exact List.foldlRecOn (motive := fun v : Bay => v.takesRequests = true) joined _ (h hj) fun _ hv e _ => Bay.enqueue_takesRequests hv e

/-- Between `s` and `v` the entries of `joined` have arrived at bay `c`, which were HELD for it and are QUEUED there, in the order taken. -/
structure State.Fills (s v : State) (c : BayId) (joined : List EntryId) : Prop where
  bay : v.bays[c] = s.bays[c].arrivals joined
  takes : joined ≠ [] → s.bays[c].takesRequests = true
  released : ∀ e ∈ joined, s.tracker.entries[e].state = .held ∧ (∃ x, s.tracker.entries[e].xlat = some x ∧ x.bay = c) ∧ v.tracker.entries[e] = { s.tracker.entries[e] with state := .queued }

namespace State.Fills

variable {s v w : State} {c : BayId} {joined : List EntryId}

theorem nil (h : v.bays[c] = s.bays[c]) : s.Fills v c [] := ⟨h, fun hn => absurd rfl hn, nofun⟩

theorem queue (h : s.Fills v c joined) : v.bays[c].queue = s.bays[c].queue ++ joined := by rw [h.bay, Bay.arrivals_queue]

theorem takesRequests (h : s.Fills v c joined) : v.bays[c].takesRequests = s.bays[c].takesRequests := by rw [h.bay, Bay.arrivals_takesRequests h.takes]

theorem receives (h : s.Fills v c joined) (hsound : s.bays[c].state = .parked → s.bays[c].Sound) : s.bays[c].Receives joined v.bays[c] := h.bay ▸ Bay.arrivals_receives hsound joined

/-- What comes after spares the entries that have arrived. -/
theorem spared (h : s.Fills v c joined) (hb : w.bays = v.bays) (hs : ∀ e ∈ joined, v.Spares w e) : s.Fills w c joined where
  bay := hb ▸ h.bay
  takes := h.takes
  released e he := by
    obtain ⟨hheld, hx, hq⟩ := h.released e he
    exact ⟨hheld, hx, (hs e he).entry.trans hq⟩

end State.Fills

/-- In an examination of the hold lists each bay is filled by entries that were HELD for it. -/
theorem State.examineHolds_fills {s : State} (hn : s.tracker.taken.Nodup) (ds : List DomainId) (c : BayId) :
    ∃ joined, s.Fills (s.examineHolds ds) c joined ∧ joined.Sublist s.tracker.taken ∧ ∀ e ∈ joined, s.tracker.entries[e].domain ∈ ds ∧ s.tracker.entries[e].stale = false := by
  refine State.foldl_untouched (step := State.holdStep ds) (P := fun passed v => ∀ c : BayId, ∃ joined, s.Fills v c joined ∧ joined.Sublist passed
      ∧ ∀ e ∈ joined, s.tracker.entries[e].domain ∈ ds ∧ s.tracker.entries[e].stale = false) hn (State.holdStep_touched ds) (fun c => ⟨[], .nil rfl, .slnil, nofun⟩) ?_ c
  intro passed e v _ hnot hspared hfills
  have hsame := hspared.entry
  have hstays (hb : (v.holdStep ds e).bays = v.bays) (c : BayId) :
      ∃ joined, s.Fills (v.holdStep ds e) c joined ∧ joined.Sublist (passed ++ [e]) ∧ ∀ e ∈ joined, s.tracker.entries[e].domain ∈ ds ∧ s.tracker.entries[e].stale = false := by
    obtain ⟨joined, hf, hsub, hds⟩ := hfills c
    exact ⟨joined, hf.spared hb fun x hx => .of_touched (v.holdStep_touched ds e) fun hxe => hnot (hxe ▸ hsub.subset hx), hsub.trans (List.sublist_append_left _ _), hds⟩
  refine State.holdStep_cases (P := fun w => v.holdStep ds e = w → ∀ c : BayId, ∃ joined, s.Fills (v.holdStep ds e) c joined ∧ joined.Sublist (passed ++ [e])
      ∧ ∀ e ∈ joined, s.tracker.entries[e].domain ∈ ds ∧ s.tracker.entries[e].stale = false)
    (fun _ hw => hstays (by rw [hw])) (fun x hr hst ht hw c => ?_) (fun _ _ _ _ hw => hstays (by rw [hw, State.endPosted_bays])) (fun _ _ _ _ hw => hstays (by rw [hw]; rfl)) rfl
  obtain ⟨joined, hf, hsub, hds⟩ := hfills c
  have htouched := v.holdStep_touched ds e
  by_cases hc : c = x.bay
  · subst hc
    refine ⟨joined ++ [e], ⟨?_, fun _ => ?_, fun y hy => ?_⟩, hsub.append (.refl _), fun y hy => ?_⟩
    · rw [hw, State.place, State.mapBay_same, Bay.arrivals_append, ← hf.bay]
      rfl
    · rw [← hf.takesRequests]; exact ht
    · rcases List.mem_append.1 hy with hy | hy
      · obtain ⟨hheld, hx, hq⟩ := hf.released y hy
        exact ⟨hheld, hx, (htouched.others y fun hye => hnot (hye ▸ hsub.subset hy)).trans hq⟩
      · obtain rfl := List.mem_singleton.1 hy
        rw [← hsame]
        exact ⟨hr.held, ⟨x, hr.xlat, rfl⟩, by rw [hw, State.place_same]⟩
    · rcases List.mem_append.1 hy with hy | hy
      · exact hds y hy
      · obtain rfl := List.mem_singleton.1 hy
        rw [← hsame]
        exact ⟨hr.asked, hst⟩
  · refine ⟨joined, ⟨?_, hf.takes, fun y hy => ?_⟩, hsub.trans (List.sublist_append_left _ _), hds⟩
    · rw [hw, State.place, State.mapBay_other hc]
      exact hf.bay
    · obtain ⟨hheld, hx, hq⟩ := hf.released y hy
      exact ⟨hheld, hx, (htouched.others y fun hye => hnot (hye ▸ hsub.subset hy)).trans hq⟩

/-- What every step of the examination keeps: which bays take requests, and what stands in their queues. -/
structure State.BaysGrow (s v : State) : Prop where
  takes : ∀ c : BayId, v.bays[c].takesRequests = s.bays[c].takesRequests
  queue : ∀ c : BayId, s.bays[c].queue <+: v.bays[c].queue

theorem State.BaysGrow.refl (s : State) : s.BaysGrow s := ⟨fun _ => rfl, fun _ => List.prefix_rfl⟩

theorem State.BaysGrow.of_bays {s v w : State} (h : s.BaysGrow v) (hb : w.bays = v.bays) : s.BaysGrow w := ⟨hb ▸ h.takes, hb ▸ h.queue⟩

theorem State.BaysGrow.holdStep {s v : State} (h : s.BaysGrow v) (ds : List DomainId) (e : EntryId) : s.BaysGrow (v.holdStep ds e) := by
  refine State.holdStep_cases (P := fun w => s.BaysGrow w) (fun _ => h) (fun x _ _ ht => ⟨fun c => ?_, fun c => ?_⟩) (fun _ _ _ _ => h.of_bays (State.endPosted_bays ..)) fun _ _ _ _ => h.of_bays rfl
  · rw [State.place, State.mapBay_get]
    split
    · next hc => subst hc; exact (Bay.enqueue_takesRequests ht e).trans (ht.symm.trans (h.takes _))
    · exact h.takes c
  · rw [State.place, State.mapBay_get]
    split
    · next hc => subst hc; rw [Bay.enqueue_queue]; exact (h.queue _).trans (List.prefix_append _ _)
    · exact h.queue c

/-- The examination of the hold lists, seen from one entry. -/
theorem State.examineHolds_outcome {s : State} (hn : s.tracker.taken.Nodup) (ds : List DomainId) {e : EntryId} (he : e ∈ s.tracker.taken) : s.HeldOutcome ds (s.examineHolds ds) e := by
  obtain ⟨v, after, hgrow, hspared, hfold, hlater⟩ := State.foldl_entry (K := fun v => s.BaysGrow v) (step := State.holdStep ds) hn (.refl s) (State.holdStep_touched ds)
    (fun _ hv x _ => hv.holdStep ds x) he
  have hsame := hspared.entry
  have hrest : (v.holdStep ds e).BaysGrow (s.examineHolds ds) := by
    rw [State.examineHolds_eq, hfold]
    exact foldl_kept (P := fun w => (v.holdStep ds e).BaysGrow w) (fun _ x hw => hw.holdStep ds x) after _ (.refl _)
  refine State.holdStep_cases (P := fun w => v.holdStep ds e = w → s.HeldOutcome ds (s.examineHolds ds) e) (fun _ hw => ?_) (fun x hr hst ht hw => ?_) (fun x hr hnot hp hw => ?_)
    (fun x hr hnot hp hw => ?_) rfl
  · rw [hw] at hlater
    exact .kept (hspared.trans hlater)
  · refine .placed x (hsame ▸ ⟨hr.held, hr.asked⟩) (hsame ▸ hr.xlat) (hsame ▸ hst) (hgrow.takes x.bay ▸ ht) ?_ ((hrest.queue x.bay).subset ?_)
    · rw [State.examineHolds_eq, hlater.entry, hw, State.place_same, hsame]
    · rw [hw, State.place, State.mapBay_same, Bay.enqueue_queue]
      exact List.mem_append_right _ List.mem_cons_self
  · refine .failed x (hsame ▸ ⟨hr.held, hr.asked⟩) (hsame ▸ hr.xlat) (hsame ▸ hgrow.takes x.bay ▸ hnot) (.inl ⟨hsame ▸ hp, ?_⟩)
    rw [hw] at hlater
    exact hsame ▸ (v.endPosted_postedEnd e .bayNotReady).spared hlater
  · refine .failed x (hsame ▸ ⟨hr.held, hr.asked⟩) (hsame ▸ hr.xlat) (hsame ▸ hgrow.takes x.bay ▸ hnot) (.inr ⟨hsame ▸ hp, ?_, ?_⟩)
    · rw [State.examineHolds_eq, hlater.listed, hw]
      exact hspared.listed.2 he
    · rw [State.examineHolds_eq, hlater.entry, hw, State.goDone_same, hsame]

/-! ### What the examination of the SYNCs leaves of an entry, and of a flag (R56, R57) -/

/-- The record of a SYNC that has gone DONE with the flag as it stood. -/
def Entry.syncEnd (x : Entry) (flag : Bool) : Entry := { x with state := .done, status := .ok, flags := { x.flags with postedFault := flag } }

/-- What the examination of the SYNCs, begun in `s`, has made of the WAITING entry `e` in `v`. -/
inductive State.SyncOutcome (s v : State) (e : EntryId) : Prop
  | kept (h : v.tracker.entries[e] = s.tracker.entries[e])
  | ended (flag : Bool) (hs : s.tracker.entries[e].state = .waiting) (h : v.tracker.entries[e] = s.tracker.entries[e].syncEnd flag)

theorem State.syncStep_outcome (ds : List DomainId) (s : State) (e : EntryId) : s.SyncOutcome (s.syncStep ds e) e := by
  unfold State.syncStep
  split
  · next hc =>
    obtain ⟨-, hs, -⟩ := (s.syncStep_due_iff ds e).1 hc
    exact .ended _ hs (State.syncDone_same e s)
  · exact .kept rfl

theorem State.examineSyncs_outcome {s : State} (hn : s.tracker.taken.Nodup) (ds : List DomainId) {e : EntryId} (he : e ∈ s.tracker.taken) : s.SyncOutcome (s.examineSyncs ds) e := by
  obtain ⟨v, -, -, hspared, -, hlater⟩ := State.foldl_entry (K := fun _ => True) (step := State.syncStep ds) hn trivial (State.syncStep_touched ds) (fun _ _ _ _ => trivial) he
  rw [State.examineSyncs_eq]
  cases v.syncStep_outcome ds e with
  | kept h => exact .kept (hlater.entry.trans (h.trans hspared.entry))
  | ended flag hs h =>
    rw [hspared.entry] at hs h
    exact .ended flag hs (hlater.entry.trans h)

/-- A SYNC of `d` that waited in `s` has gone DONE in `v`, and has taken the flag. -/
def State.SyncTakes (s v : State) (d : DomainId) : Prop :=
  ∃ y ∈ s.tracker.taken, s.tracker.entries[y].state = .waiting ∧ s.tracker.entries[y].domain = d ∧ v.tracker.entries[y] = s.tracker.entries[y].syncEnd true

theorem State.syncDone_postedFault (e : EntryId) (s : State) : (s.syncDone e).tracker.postedFault = s.tracker.postedFault.set s.tracker.entries[e].domain false := rfl

/-- A flag that is set stays, or a SYNC takes it and leaves it clear; and a clear one stays clear. -/
theorem State.examineSyncs_flag {s : State} (hn : s.tracker.taken.Nodup) (ds : List DomainId) (d : DomainId) :
    (s.examineSyncs ds).tracker.postedFault[d] = s.tracker.postedFault[d] ∨ (s.examineSyncs ds).tracker.postedFault[d] = false ∧ s.SyncTakes (s.examineSyncs ds) d := by
  refine State.foldl_untouched (step := State.syncStep ds) (P := fun passed v => v.tracker.postedFault[d] = s.tracker.postedFault[d]
      ∨ v.tracker.postedFault[d] = false ∧ ∃ y ∈ passed, s.tracker.entries[y].state = .waiting ∧ s.tracker.entries[y].domain = d ∧ v.tracker.entries[y] = s.tracker.entries[y].syncEnd true)
    hn (State.syncStep_touched ds) (.inl rfl) ?_
  intro passed e v _ hnot hspared hflag
  have hsame := hspared.entry
  have htouched := v.syncStep_touched ds e
  have hkept (hf : (v.syncStep ds e).tracker.postedFault[d] = v.tracker.postedFault[d]) : (v.syncStep ds e).tracker.postedFault[d] = s.tracker.postedFault[d]
      ∨ (v.syncStep ds e).tracker.postedFault[d] = false ∧ ∃ y ∈ passed ++ [e], s.tracker.entries[y].state = .waiting ∧ s.tracker.entries[y].domain = d
        ∧ (v.syncStep ds e).tracker.entries[y] = s.tracker.entries[y].syncEnd true := by
    rcases hflag with hflag | ⟨hflag, y, hy, hs, hd, hrec⟩
    · exact .inl (hf.trans hflag)
    · exact .inr ⟨hf.trans hflag, y, List.mem_append_left _ hy, hs, hd, (htouched.others y fun hye => hnot (hye ▸ hy)).trans hrec⟩
  by_cases hc : (ds.contains v.tracker.entries[e].domain && v.tracker.entries[e].state == .waiting && v.tracker.earlierDone e) = true
  · have hstep : v.syncStep ds e = v.syncDone e := if_pos hc
    obtain ⟨-, hs, -⟩ := (v.syncStep_due_iff ds e).1 hc
    by_cases hd : v.tracker.entries[e].domain = d
    · have hclear : (v.syncStep ds e).tracker.postedFault[d] = false := by
        rw [hstep, State.syncDone_postedFault]
        simp only [hd]
        exact Vector.getElem_set_self d.isLt
      cases hf : v.tracker.postedFault[d] with
      | false => exact hkept (hclear.trans hf.symm)
      | true =>
        refine .inr ⟨hclear, e, List.mem_append_right _ List.mem_cons_self, hsame ▸ hs, hsame ▸ hd, ?_⟩
        rw [hstep, State.syncDone_same, ← hsame]
        simp only [Entry.synced, Entry.syncEnd, hd, hf]
    · refine hkept ?_
      rw [hstep, State.syncDone_postedFault]
      exact Vector.getElem_set_ne v.tracker.entries[e].domain.isLt d.isLt fun h => hd (Fin.ext h)
  · have hstep : v.syncStep ds e = v := if_neg hc
    exact hkept (by rw [hstep])

end Sys2Proof.Machine

/-! The tracker's operations beside the tracker: what they leave of the other blocks, the posted failure path (R50), and the rules of order when the hold lists and the SYNCs have been examined (R53, R56). -/

namespace Sys2Proof.Machine

/-! ### The blocks beside the tracker and the bays -/

/-- Between `s` and `v` nothing has changed of the uplink, the tables, the waiting commands, the active marks and the lists of the domains, and no pending latch has been cleared. -/
structure State.Beside (s v : State) : Prop where
  uplink : v.uplink = s.uplink
  tables : v.tables = s.tables
  pending : v.pending = s.pending
  events : s.events.TablesKept v.events
  latches : ∀ it, s.events.isPending it = true → v.events.isPending it = true
  active : ∀ it, v.events.isActive it = s.events.isActive it
  lists : ∀ d : DomainId, v.events.delivery[d].threshold = s.events.delivery[d].threshold ∧ v.events.delivery[d].inService = s.events.delivery[d].inService

theorem EventUnit.TablesKept.trans {u v w : EventUnit} (h : u.TablesKept v) (h' : v.TablesKept w) : u.TablesKept w := by
  obtain ⟨h1, h2, h3⟩ := h
  obtain ⟨h1', h2', h3'⟩ := h'
  exact ⟨h1'.trans h1, h2'.trans h2, h3'.trans h3⟩

namespace State.Beside

variable {s u v : State}

theorem of_blocks (hup : v.uplink = s.uplink) (ht : v.tables = s.tables) (hp : v.pending = s.pending) (he : v.events = s.events) : s.Beside v :=
  ⟨hup, ht, hp, by rw [he]; exact ⟨rfl, rfl, rfl⟩, fun it h => by rw [he]; exact h, fun it => by rw [he], fun d => by rw [he]; exact ⟨rfl, rfl⟩⟩

theorem refl (s : State) : s.Beside s := of_blocks rfl rfl rfl rfl

theorem trans (h : s.Beside u) (h' : u.Beside v) : s.Beside v where
  uplink := h'.uplink.trans h.uplink
  tables := h'.tables.trans h.tables
  pending := h'.pending.trans h.pending
  events := h.events.trans h'.events
  latches it hit := h'.latches it (h.latches it hit)
  active it := (h'.active it).trans (h.active it)
  lists d := ⟨(h'.lists d).1.trans (h.lists d).1, (h'.lists d).2.trans (h.lists d).2⟩

theorem latch (s : State) (it : Item) : s.Beside (s.latch it) where
  uplink := State.latch_uplink it s
  tables := State.latch_tables it s
  pending := State.latch_pending it s
  events := s.latch_tablesKept it
  latches o ho := by
    rw [State.latch_isPending]
    split
    · rfl
    · exact ho
  active o := State.latch_isActive it o s
  lists d := ⟨State.latch_threshold it d s, State.latch_inService it d s⟩

/-- The operations of the tracker and the bays reach no other block but by offers and latches. -/
theorem movesKept (s : State) : MovesKept s.Beside where
  tracker _ _ h := h.trans (of_blocks rfl rfl rfl rfl)
  bays _ _ h := h.trans (of_blocks rfl rfl rfl rfl)
  offer v o h := h.trans (of_blocks (State.offer_uplink o v) (State.offer_tables o v) (State.offer_pending o v) (State.offer_events o v))
  latch v it h := h.trans (latch v it)

end State.Beside

/-! ### The posted failure path (R50) -/

/-- The first offer that a capture record holds stays there. -/
theorem State.Captured.workKept (o : Offer) : WorkKept fun v => ∃ more, v.capture = some { offer := o, more := more } where
  tracker _ _ h := h
  offer v o' := fun ⟨_, h⟩ => ⟨_, State.offer_valid o' v _ h⟩
  latch v it := fun ⟨more, h⟩ => ⟨more, (State.latch_capture it v).trans h⟩
  enqueue _ _ _ _ h := h
  dequeue _ _ _ h := h

/-- A pending latch stays set. -/
theorem State.Latched.workKept (it : Item) : WorkKept fun v => v.events.isPending it = true where
  tracker _ _ h := h
  offer v o h := by rw [State.offer_events]; exact h
  latch v o h := (State.Beside.latch v o).latches it h
  enqueue _ _ _ _ h := h
  dequeue _ _ _ h := h

section
variable {e : EntryId} {st : Status} {s : State}

theorem State.endPosted_failed {P : State → Prop} (hst : st ≠ .ok) (hfree : ∀ v, P v → P (v.freeEntry e)) (h : P ((s.goDone e st).postedFailure s.tracker.entries[e] st)) : P (s.endPosted e st) := by
  have hstopped : s.postedStopped e st = (s.goDone e st).postedFailure s.tracker.entries[e] st := if_neg (by simpa using hst)
  rw [State.endPosted_eq, hstopped]
  split
  · exact h
  · exact hfree _ h

theorem State.endPosted_postedFault (hst : st ≠ .ok) : (s.endPosted e st).tracker.postedFault = s.tracker.postedFault.set s.tracker.entries[e].domain true :=
  State.endPosted_failed (P := fun v => v.tracker.postedFault = s.tracker.postedFault.set s.tracker.entries[e].domain true) hst (fun _ h => h) (by rw [State.postedFailure_tracker]; rfl)

/-- No flag is cleared by the end of a posted entry. -/
theorem State.endPosted_flags (d : DomainId) (h : s.tracker.postedFault[d] = true) : (s.endPosted e st).tracker.postedFault[d] = true := by
  by_cases hst : st = .ok
  · have hsame : (s.endPosted e st).tracker.postedFault = s.tracker.postedFault := by
      rw [State.endPosted_eq, State.postedStopped, if_pos (beq_iff_eq.2 hst)]
      split <;> rfl
    rw [hsame]
    exact h
  · rw [State.endPosted_postedFault hst]
    by_cases hd : s.tracker.entries[e].domain = d
    · simp only [hd]
      exact Vector.getElem_set_self d.isLt
    · exact (Vector.getElem_set_ne s.tracker.entries[e].domain.isLt d.isLt fun hv => hd (Fin.ext hv)).trans h

theorem State.endPosted_capture (hst : st ≠ .ok) (h : s.capture = none) : ∃ more, (s.endPosted e st).capture = some { offer := s.tracker.entries[e].failureOffer st, more := more } := by
  refine State.endPosted_failed (P := fun v => ∃ more, v.capture = some { offer := s.tracker.entries[e].failureOffer st, more := more }) hst (fun _ h => h) ⟨0, ?_⟩
  unfold State.postedFailure
  dsimp only
  split
  · rw [State.raise_capture]
    exact State.offer_invalid _ _ h
  · exact State.offer_invalid _ _ h

theorem State.endPosted_latched (hst : st ≠ .ok) {x : Translation} (hx : s.tracker.entries[e].xlat = some x) (hs : s.bays[x.bay].policy.sense.getLsbD CondKind.postedFault.index = true) :
    (s.endPosted e st).events.isPending (.bay (baySource x.bay CondKind.postedFault.index)) = true := by
  refine State.endPosted_failed (P := fun v => v.events.isPending (.bay (baySource x.bay CondKind.postedFault.index)) = true) hst (fun _ h => h) ?_
  unfold State.postedFailure
  rw [hx]
  dsimp only
  rw [State.raise_on, State.latch_isPending, if_pos rfl]
  rw [State.offer_bays]
  exact hs

end

/-! ### The flags in the examination of the hold lists -/

theorem State.holdStep_flags (ds : List DomainId) (e : EntryId) (d : DomainId) (s : State) (h : s.tracker.postedFault[d] = true) : (s.holdStep ds e).tracker.postedFault[d] = true :=
  State.holdStep_cases (P := fun v => v.tracker.postedFault[d] = true) (fun _ => h) (fun _ _ _ _ => h) (fun _ _ _ _ => State.endPosted_flags d h) fun _ _ _ _ => h

/-- No flag is cleared there. -/
theorem State.examineHolds_flags (ds : List DomainId) (d : DomainId) (s : State) (h : s.tracker.postedFault[d] = true) : (s.examineHolds ds).tracker.postedFault[d] = true :=
  foldl_kept (P := fun v : State => v.tracker.postedFault[d] = true) (fun v e hv => v.holdStep_flags ds e d hv) _ s h

/-- The flag of a domain that is not examined stays as it is. -/
theorem State.examineHolds_otherFlags {ds : List DomainId} {d : DomainId} (hd : d ∉ ds) (s : State) : (s.examineHolds ds).tracker.postedFault[d] = s.tracker.postedFault[d] := by
  refine foldl_kept (P := fun v : State => v.tracker.postedFault[d] = s.tracker.postedFault[d]) (fun v e hv => ?_) _ s rfl
  refine State.holdStep_cases (P := fun w => w.tracker.postedFault[d] = s.tracker.postedFault[d]) (fun _ => hv) (fun _ _ _ _ => hv) (fun x hr _ _ => ?_) fun _ _ _ _ => hv
  rw [State.endPosted_postedFault (by decide)]
  exact (Vector.getElem_set_ne v.tracker.entries[e].domain.isLt d.isLt fun h => hd (Fin.ext h ▸ hr.asked)).trans hv

/-- A SYNC that has taken a flag carries it in its response. -/
theorem State.SyncTakes.flagTaken {s v w : State} {d : DomainId} (h : v.SyncTakes w d) (hsame : ∀ y ∈ v.tracker.taken, v.tracker.entries[y].state = .waiting → s.tracker.entries[y] = v.tracker.entries[y])
    (hwait : ∀ y ∈ v.tracker.taken, v.tracker.entries[y].state = .waiting → v.tracker.entries[y].posted = false ∧ v.tracker.entries[y].response = none) {es : List EntryId}
    (hes : ∀ y ∈ v.tracker.taken, y ∈ es) : s.FlagTaken (w.readyThese es) d := by
  obtain ⟨y, hy, hs, hd, hrec⟩ := h
  obtain ⟨hp, hr⟩ := hwait y hy hs
  have hu : w.tracker.entries[y].unanswered = true := by rw [hrec, Entry.unanswered, Entry.syncEnd, hp, hr]; rfl
  obtain ⟨n, hn⟩ := State.readyThese_answers (hes y hy) hu
  have hsy := hsame y hy hs
  refine ⟨y, w.tracker.entries[y].assemble, by rw [hsy]; exact hs, by rw [hsy]; exact hd, by rw [hn], ?_⟩
  rw [hrec]
  rfl

/-! ### The rules of order when all has been examined (R53, R56) -/

section
variable {s : State} {σ ε : Prop} {hs ss : DomainId → Prop} {ds : List DomainId}

theorem State.obeys_holdStep (h : s.tracker.Obeys σ ε hs ss) (hh : ∀ d ∈ ds, hs d) (hd : ∀ d ∈ ds, ss d) (e : EntryId) : (s.holdStep ds e).tracker.Obeys σ ε hs ss := by
  have hquits {u : State} (hq : s.tracker.Quits u.tracker e) {x : Translation} (hr : s.Releases ds e x) : u.tracker.Obeys σ ε hs ss :=
    h.ended hq.touched hq.done (.inl (hh _ hr.asked)) (hd _ hr.asked)
  exact State.holdStep_cases (P := fun v => v.tracker.Obeys σ ε hs ss) (fun _ => h)
    (fun x hr _ _ => h.placed (s.place_touched e x.bay) rfl (s.place_same e x.bay) hr.held hr.xlat hr.free (hh _ hr.asked))
    (fun _ hr _ _ => hquits (s.endPosted_quits e _) hr) fun _ hr _ _ => hquits (s.goDone_quits e _) hr

theorem State.obeys_examineHolds (hn : s.tracker.taken.Nodup) (h : s.tracker.Obeys σ ε hs ss) (hh : ∀ d ∈ ds, hs d) (hd : ∀ d ∈ ds, ss d) :
    (s.examineHolds ds).tracker.Obeys σ ε (fun d => hs d ∧ d ∉ ds) ss := by
  obtain ⟨hend, hstopped⟩ := State.foldl_pass (K := fun v => v.tracker.Obeys σ ε hs ss) (C := Tracker.StoppedAt ds) (step := State.holdStep ds) hn h
    (Tracker.stoppedAt_local ds) (State.holdStep_touched ds) (fun _ e hv _ => State.obeys_holdStep hv hh hd e) fun v e _ _ => v.holdStep_stoppedAt ds e
  exact hend.holds_examined hstopped

theorem State.obeys_syncStep (h : s.tracker.Obeys σ ε hs ss) (hd : ∀ d ∈ ds, ss d) (e : EntryId) : (s.syncStep ds e).tracker.Obeys σ ε hs ss := by
  unfold State.syncStep
  split
  · next hc =>
    obtain ⟨hdom, hw, -⟩ := (s.syncStep_due_iff ds e).1 hc
    have hq := s.syncDone_quits e
    refine h.ended hq.touched hq.done (.inr ⟨?_, by rw [hw]; decide⟩) (hd _ hdom)
    rw [Bool.eq_false_iff, Ne, Entry.postedOpen_iff, hw]
    exact fun ⟨_, hs⟩ => absurd hs (by decide)
  · exact h

theorem State.obeys_examineSyncs (hn : s.tracker.taken.Nodup) (h : s.tracker.Obeys σ ε hs ss) (hd : ∀ d ∈ ds, ss d) :
    (s.examineSyncs ds).tracker.Obeys σ ε hs fun d => ss d ∧ d ∉ ds := by
  obtain ⟨hend, hwaits⟩ := State.foldl_pass (K := fun v => v.tracker.Obeys σ ε hs ss) (C := Tracker.WaitsAt ds) (step := State.syncStep ds) hn h
    (Tracker.waitsAt_local ds) (State.syncStep_touched ds) (fun _ e hv _ => State.obeys_syncStep hv hd e) fun v e _ _ => v.syncStep_waitsAt ds e
  exact hend.syncs_examined hwaits

/-- The responses made ready say nothing of the order. -/
theorem State.readyThese_alike (es : List EntryId) (s : State) : s.tracker.Alike (s.readyThese es).tracker := by
  have htrans {t u v : Tracker} (h : t.Alike u) (h' : u.taken = v.taken ∧ ∀ x : EntryId, v.entries[x].domain = u.entries[x].domain ∧ v.entries[x].posted = u.entries[x].posted
      ∧ v.entries[x].xlat = u.entries[x].xlat ∧ v.entries[x].state = u.entries[x].state) : t.Alike v := by
    refine ⟨h'.1.symm.trans h.taken, fun x => ?_⟩
    obtain ⟨hd, hp, hx, hs⟩ := h'.2 x
    obtain ⟨hd', hp', hx', hs'⟩ := h.entry x
    exact ⟨hd.trans hd', hp.trans hp', hx.trans hx', by rw [hs]; exact hs'⟩
  refine foldl_kept (P := fun v : State => s.tracker.Alike v.tracker) (fun v e hv => htrans hv ⟨(State.readyIfDone_tracker_taken e v).symm, fun x => ?_⟩) es s ⟨rfl, fun _ => .refl _⟩
  unfold State.readyIfDone
  split
  · by_cases hx : x = e
    · subst hx; rw [State.readyDone, State.makeReady_same]; exact ⟨rfl, rfl, rfl, rfl⟩
    · rw [State.readyDone, State.makeReady_other hx]; exact ⟨rfl, rfl, rfl, rfl⟩
  · exact ⟨rfl, rfl, rfl, rfl⟩

end

end Sys2Proof.Machine

/-! The end of an entry of a bay queue (R46, R49, R53, R54, R56 to R58, R60): the entry itself, the entries it lets go, and what else the event reaches. -/

namespace Sys2Proof.Machine

/-! ### The examinations, seen from one entry -/

theorem State.readyIfDone_touched (e : EntryId) (s : State) : s.tracker.Touched (s.readyIfDone e).tracker e := by
  unfold State.readyIfDone
  split
  · exact s.makeReady_touched e _
  · exact .refl _ e

theorem State.examineHolds_nodup {s : State} (hn : s.tracker.taken.Nodup) (ds : List DomainId) : (s.examineHolds ds).tracker.taken.Nodup :=
  foldl_kept (P := fun v : State => v.tracker.taken.Nodup) (fun v e hv => (v.holdStep_touched ds e).nodup hv) _ s hn

theorem State.examineHolds_taken_subset {s : State} {ds : List DomainId} {x : EntryId} (hx : x ∈ (s.examineHolds ds).tracker.taken) : x ∈ s.tracker.taken :=
  State.foldl_taken_subset (State.holdStep_touched ds) _ s hx

/-- An entry that waits when the hold lists have been examined was not reached. -/
theorem State.examineHolds_spares_waiting {s : State} (hn : s.tracker.taken.Nodup) {ds : List DomainId} {e : EntryId} (he : e ∈ s.tracker.taken)
    (hw : (s.examineHolds ds).tracker.entries[e].state = .waiting) : s.Spares (s.examineHolds ds) e := by
  cases State.examineHolds_outcome hn ds he with
  | kept h => exact h
  | placed x hr hx hs ht h hq => rw [h] at hw; cases hw
  | failed x hr hx hs h =>
    rcases h with ⟨-, ⟨-, h⟩ | ⟨-, h, -⟩⟩ | ⟨-, -, h⟩
    · rw [h] at hw; cases hw
    · rw [h] at hw; cases hw
    · rw [h] at hw; cases hw

/-- What all the examinations leave of an entry that was HELD, when the responses of `es` have been made ready. -/
theorem State.letGo_held {s : State} (hn : s.tracker.taken.Nodup) {hs ss : List DomainId} {e : EntryId} (he : e ∈ s.tracker.taken) (hheld : s.tracker.entries[e].state = .held)
    (hr : s.tracker.entries[e].posted = false → s.tracker.entries[e].response = none) {x : Translation} (hx : s.tracker.entries[e].xlat = some x) {es : List EntryId}
    (hes : e ∈ (s.letGo hs ss).tracker.taken → e ∈ es) :
    ((s.letGo hs ss).readyThese es).tracker.entries[e] = s.tracker.entries[e]
      ∨ (s.tracker.entries[e].domain ∈ hs ∧ s.tracker.entries[e].stale = false ∧ s.bays[x.bay].takesRequests = true
          ∧ ((s.letGo hs ss).readyThese es).tracker.entries[e] = { s.tracker.entries[e] with state := .queued } ∧ e ∈ ((s.letGo hs ss).readyThese es).bays[x.bay].queue)
      ∨ (s.tracker.entries[e].domain ∈ hs ∧ (s.tracker.entries[e].stale = true ∨ s.bays[x.bay].takesRequests = false)
          ∧ (((s.letGo hs ss).readyThese es).tracker.entries[e].state = .done ∧ ((s.letGo hs ss).readyThese es).tracker.entries[e].status = .bayNotReady
            ∨ ((s.letGo hs ss).readyThese es).tracker.entries[e].state = .free)
          ∧ (s.tracker.entries[e].discard = false → ((s.letGo hs ss).readyThese es).tracker.Ended e s.tracker.entries[e] .bayNotReady)) := by
  have hbays : ((s.letGo hs ss).readyThese es).bays = (s.examineHolds hs).bays := by
    rw [State.readyThese_bays, State.letGo, State.examineSyncs_bays]
  have hlater (hw : (s.examineHolds hs).tracker.entries[e].state ≠ .waiting) : (s.examineHolds hs).Spares (s.letGo hs ss) e := .examineSyncs fun h => absurd h hw
  have hspares (hw : (s.examineHolds hs).tracker.entries[e].state ≠ .waiting) (hu : (s.examineHolds hs).tracker.entries[e].unanswered = false) :
      (s.examineHolds hs).Spares ((s.letGo hs ss).readyThese es) e := (hlater hw).trans (.readyThese _ (by rw [(hlater hw).entry]; exact hu))
  cases State.examineHolds_outcome hn hs he with
  | kept h => exact .inl ((hspares (by rw [h.entry, hheld]; nofun) (by rw [h.entry, Entry.unanswered, hheld]; rfl)).entry.trans h.entry)
  | placed y hd hy hst ht h hq =>
    obtain rfl := Option.some.inj (hx.symm.trans hy)
    exact .inr (.inl ⟨hd.2, hst, ht, (hspares (by rw [h]; nofun) (by rw [h]; rfl)).entry.trans h, hbays ▸ hq⟩)
  | failed y hd hy hst h =>
    obtain rfl := Option.some.inj (hx.symm.trans hy)
    refine .inr (.inr ⟨hd.2, hst, ?_⟩)
    rcases h with ⟨hp, h⟩ | ⟨hp, hl, h⟩
    · have hsp := hspares (by rcases h with ⟨-, h⟩ | ⟨-, h, -⟩ <;> rw [h] <;> nofun) h.unanswered
      refine ⟨?_, fun _ => (h.spared hsp).ended hp⟩
      rw [hsp.entry]
      rcases h with ⟨-, h⟩ | ⟨-, h, -⟩
      · rw [h]; exact .inl ⟨rfl, rfl⟩
      · rw [h]; exact .inr rfl
    · have hl' := hlater (by rw [h]; nofun)
      have hrec := hl'.entry.trans h
      have hlisted := hes (hl'.listed.2 hl)
      refine ⟨.inl ?_, fun hdis => State.readyThese_ended hrec hp hdis (hr hp) hlisted⟩
      obtain ⟨n, hn⟩ := State.readyThese_answers hlisted (by rw [hrec, Entry.unanswered, hp, hr hp]; rfl)
      rw [hn, hrec]
      exact ⟨rfl, rfl⟩

/-- What all the examinations leave of an entry that was WAITING. -/
theorem State.examine_waiting {s : State} (hn : s.tracker.taken.Nodup) {hs ss : List DomainId} {e : EntryId} (he : e ∈ s.tracker.taken) (hw : s.tracker.entries[e].state = .waiting)
    (hk : s.tracker.entries[e].kind = .sync) (hp : s.tracker.entries[e].posted = false) (hr : s.tracker.entries[e].response = none) :
    (s.examine hs ss).tracker.entries[e] = s.tracker.entries[e]
      ∨ ∃ (flag : Bool) (n : Nat), (s.examine hs ss).tracker.entries[e] = { s.tracker.entries[e] with
          state := .done, status := .ok, flags := { s.tracker.entries[e].flags with postedFault := flag }, seq := some n
          response := some { domain := s.tracker.entries[e].domain, tag := s.tracker.entries[e].tag, status := .ok, unitsDone := 0
                             flags := { s.tracker.entries[e].flags with postedFault := flag, carry := s.tracker.entries[e].carry }
                             result := s.tracker.entries[e].result, payload := [] } } := by
  have hheld : s.Spares (s.examineHolds hs) e := .examineHolds fun h => absurd (hw.symm.trans h) (by decide)
  cases State.examineSyncs_outcome (State.examineHolds_nodup hn hs) ss (hheld.listed.2 he) with
  | kept h =>
    have hsame := h.trans hheld.entry
    exact .inl ((State.readyThese_keeps _ (s.letGo hs ss) e (by rw [State.letGo, hsame, Entry.unanswered, hw]; rfl)).trans hsame)
  | ended flag hs' h =>
    have hrec : (s.letGo hs ss).tracker.entries[e] = s.tracker.entries[e].syncEnd flag := by rw [State.letGo, h, hheld.entry]
    have hlisted : e ∈ (s.letGo hs ss).tracker.taken := by
      rw [State.letGo, State.examineSyncs_tracker_taken]
      exact hheld.listed.2 he
    obtain ⟨n, hend⟩ := State.readyThese_answers hlisted (by rw [hrec, Entry.unanswered, Entry.syncEnd, hp, hr]; rfl)
    refine .inr ⟨flag, n, ?_⟩
    rw [State.examine, State.readyAll, hend, hrec, Entry.syncEnd, Entry.assemble]
    simp only [hk]
    rfl

/-! ### The entry that ends (R46, R49, R58) -/

/-- The part when the entry `e` has left the queue of `b`, has ended with `st`, and has been answered where it is one that is. -/
def State.ending (b : BayId) (e : EntryId) (st : Status) (s : State) : State := ((s.dequeue b e).stopEntry e st).readyIfDone e

/-- The hold lists that are examined when `x` ends. -/
def Entry.lets (x : Entry) : List DomainId := if x.posted then [x.domain] else []

theorem State.endEntry_eq (b : BayId) (e : EntryId) (st : Status) (s : State) :
    s.endEntry b e st = (s.ending b e st).examine s.tracker.entries[e].lets [s.tracker.entries[e].domain] := rfl

theorem Entry.mem_lets {x : Entry} {d : DomainId} : d ∈ x.lets ↔ x.posted = true ∧ x.domain = d := by
  unfold Entry.lets
  split
  · next h => rw [List.mem_singleton, and_iff_right h, eq_comm]
  · next h => exact iff_of_false List.not_mem_nil fun hh => h hh.1

theorem Tracker.Ended.spared {s u : State} {e : EntryId} {x : Entry} {st : Status} (h : s.tracker.Ended e x st) (hu : s.Spares u e) : u.tracker.Ended e x st := by
  obtain ⟨h1, h2, h3⟩ := h
  refine ⟨fun hp hd => ?_, fun hp hr => hu.entry.trans (h2 hp hr), fun hp hd => ?_⟩
  · obtain ⟨n, hn⟩ := h1 hp hd
    exact ⟨n, hu.entry.trans hn⟩
  · obtain ⟨hs, hl⟩ := h3 hp hd
    exact ⟨by rw [hu.entry]; exact hs, mt hu.listed.1 hl⟩

section
variable {s : State} {b : BayId} {e : EntryId} {st : Status}

theorem State.ending_bays (b : BayId) (e : EntryId) (st : Status) (s : State) : (s.ending b e st).bays = (s.dequeue b e).bays := by
  rw [State.ending, State.readyIfDone_bays, State.stopEntry_bays]

theorem State.ending_touched (b : BayId) (e : EntryId) (st : Status) (s : State) : s.tracker.Touched (s.ending b e st).tracker e := by
  have hstop := (s.dequeue b e).stopEntry_touched e st
  have hready := ((s.dequeue b e).stopEntry e st).readyIfDone_touched e
  refine ⟨fun x hx => (hready.others x hx).trans (hstop.others x hx), ?_⟩
  rw [State.ending, State.readyIfDone_tracker_taken]
  exact hstop.taken

theorem State.ending_spares {x : EntryId} (hx : x ≠ e) : s.Spares (s.ending b e st) x := .of_touched (s.ending_touched b e st) hx

theorem State.ending_ended (hr : s.tracker.entries[e].posted = false → s.tracker.entries[e].response = none) : (s.ending b e st).tracker.Ended e s.tracker.entries[e] st :=
  ((s.dequeue b e).stopEntry_stopped e st).ended hr (es := [e]) fun _ _ => List.mem_cons_self

/-- The entry is out of the way of the examinations. -/
theorem State.ending_settled (hr : s.tracker.entries[e].posted = false → s.tracker.entries[e].response = none) :
    ((s.ending b e st).tracker.entries[e].state = .done ∨ (s.ending b e st).tracker.entries[e].state = .free) ∧ (s.ending b e st).tracker.entries[e].unanswered = false := by
  have hstopped := (s.dequeue b e).stopEntry_stopped e st
  have hkept (hu : ((s.dequeue b e).stopEntry e st).tracker.entries[e].unanswered = false) : (s.ending b e st) = (s.dequeue b e).stopEntry e st := State.readyIfDone_settled _ e hu
  rcases hstopped with ⟨hp, h⟩ | ⟨hp, hd, h, hl⟩ | ⟨hp, hd, h⟩
  · rw [hkept h.unanswered]
    refine ⟨?_, h.unanswered⟩
    rcases h with ⟨-, h⟩ | ⟨-, h, -⟩
    · rw [h]; exact .inl rfl
    · rw [h]; exact .inr rfl
  · rw [hkept (by rw [h]; rfl), h]
    exact ⟨.inr rfl, rfl⟩
  · have hu : ((s.dequeue b e).stopEntry e st).tracker.entries[e].unanswered = true := by
      have hr' : (s.dequeue b e).tracker.entries[e].response = none := hr hp
      rw [h, Entry.unanswered, hp, hr']
      rfl
    rw [State.ending, State.readyIfDone_unanswered _ _ hu, State.readyDone, State.makeReady_same, h]
    exact ⟨.inl rfl, by rw [Entry.unanswered]; exact Bool.and_false _⟩

/-- The examinations that follow reach it no more. -/
theorem State.ending_spared (hr : s.tracker.entries[e].posted = false → s.tracker.entries[e].response = none) : (s.ending b e st).Spares (s.endEntry b e st) e := by
  obtain ⟨hs, hu⟩ := State.ending_settled (b := b) (st := st) hr
  have hne {st' : EntryState} (h : st' ≠ .done) (h' : st' ≠ .free) : (s.ending b e st).tracker.entries[e].state ≠ st' := by
    rcases hs with hs | hs
    · rw [hs]; exact h.symm
    · rw [hs]; exact h'.symm
  rw [State.endEntry_eq]
  have hlet : (s.ending b e st).Spares ((s.ending b e st).letGo s.tracker.entries[e].lets [s.tracker.entries[e].domain]) e :=
    .letGo (fun h => absurd h (hne (by decide) (by decide))) fun h => absurd h (hne (by decide) (by decide))
  exact hlet.trans (.readyThese _ (by rw [hlet.entry]; exact hu))

/-- A non-posted entry that ends lets go SYNCs alone. -/
theorem State.endEntry_of_not_posted (hp : s.tracker.entries[e].posted = false) : s.endEntry b e st = (s.ending b e st).examine [] [s.tracker.entries[e].domain] := by
  rw [State.endEntry_eq, Entry.lets, if_neg (by rw [hp]; decide)]

/-- It reaches no block but the tracker, and of the bays its queue alone. -/
theorem State.endEntry_quiet (hp : s.tracker.entries[e].posted = false) :
    (s.endEntry b e st).capture = s.capture ∧ (s.endEntry b e st).events = s.events ∧ (s.endEntry b e st).bays = s.bays.set b { s.bays[b] with queue := s.bays[b].queue.filter (· != e) } := by
  rw [State.endEntry_of_not_posted hp, State.examine_nil_capture, State.examine_nil_events, State.examine_nil_bays, State.ending_bays, State.ending, State.readyIfDone_capture,
    State.readyIfDone_events]
  refine ⟨?_, ?_, rfl⟩
  · exact State.stopEntry_cases (P := fun v => v.capture = s.capture) (fun h => absurd (h.symm.trans hp) (by decide)) (fun _ _ => rfl) fun _ _ => rfl
  · exact State.stopEntry_cases (P := fun v => v.events = s.events) (fun h => absurd (h.symm.trans hp) (by decide)) (fun _ _ => rfl) fun _ _ => rfl

end

/-! ### What else the event reaches -/

section
variable {s : State} {b : BayId} {e : EntryId} {st : Status}

/-- The failure of a posted entry sets the flag of its domain, where no SYNC takes it. -/
theorem State.endEntry_flag (h : s.WorkSound) (he : e ∈ s.bays[b].queue) (hp : s.tracker.entries[e].posted = true) (hst : st ≠ .ok) :
    (s.endEntry b e st).tracker.postedFault[s.tracker.entries[e].domain] = true ∨ s.FlagTaken (s.endEntry b e st) s.tracker.entries[e].domain := by
  have hn : (s.ending b e st).tracker.taken.Nodup := (s.ending_touched b e st).nodup h.filed.taken
  have hset : (s.ending b e st).tracker.postedFault[s.tracker.entries[e].domain] = true := by
    rw [State.ending, State.readyIfDone_postedFault, State.stopEntry_posted (s := s.dequeue b e) hp, State.endPosted_postedFault hst]
    exact Vector.getElem_set_self s.tracker.entries[e].domain.isLt
  have hheld := State.examineHolds_flags s.tracker.entries[e].lets _ _ hset
  have hwaits {y : EntryId} (hy : y ∈ ((s.ending b e st).examineHolds s.tracker.entries[e].lets).tracker.taken)
      (hw : ((s.ending b e st).examineHolds s.tracker.entries[e].lets).tracker.entries[y].state = .waiting) :
      y ∈ s.tracker.taken ∧ s.tracker.entries[y] = ((s.ending b e st).examineHolds s.tracker.entries[e].lets).tracker.entries[y] := by
    have hy' := State.examineHolds_taken_subset hy
    have hsame := (State.examineHolds_spares_waiting hn hy' hw).entry
    have hye : y ≠ e := fun hye => by
      subst hye
      rw [hsame] at hw
      rcases (State.ending_settled (b := b) (st := st) fun hnp => absurd (hp.symm.trans hnp) (by decide)).1 with hs | hs
      · rw [hs] at hw; cases hw
      · rw [hs] at hw; cases hw
    exact ⟨(s.ending_touched b e st).mem_of_mem hy', (hsame.trans (State.ending_spares hye).entry).symm⟩
  rw [State.endEntry_eq, State.examine, State.readyAll, State.readyThese_postedFault, State.letGo]
  rcases State.examineSyncs_flag (State.examineHolds_nodup hn s.tracker.entries[e].lets) [s.tracker.entries[e].domain] s.tracker.entries[e].domain with hf | ⟨-, htakes⟩
  · exact .inl (hf.trans hheld)
  · refine .inr (htakes.flagTaken (fun y hy hw => (hwaits hy hw).2) (fun y hy hw => ?_) fun y hy => ?_)
    · obtain ⟨hy', hsame⟩ := hwaits hy hw
      rw [← hsame] at hw ⊢
      obtain ⟨-, hp, hr⟩ := (h.filed.entry y).waiting hy' hw
      exact ⟨hp, hr⟩
    · rw [State.examineSyncs_tracker_taken]
      exact hy

theorem State.endEntry_capture (hp : s.tracker.entries[e].posted = true) (hst : st ≠ .ok) (h : s.capture = none) :
    ∃ more, (s.endEntry b e st).capture = some { offer := s.tracker.entries[e].failureOffer st, more := more } := by
  have k := State.Captured.workKept (s.tracker.entries[e].failureOffer st)
  refine k.examine _ _ _ (k.readyIfDone e _ ?_)
  rw [State.stopEntry_posted (s := s.dequeue b e) hp]
  exact State.endPosted_capture (s := s.dequeue b e) hst h

theorem State.endEntry_latched (hp : s.tracker.entries[e].posted = true) (hst : st ≠ .ok) {x : Translation} (hx : s.tracker.entries[e].xlat = some x)
    (hs : s.bays[x.bay].policy.sense.getLsbD CondKind.postedFault.index = true) :
    (s.endEntry b e st).events.isPending (.bay (baySource x.bay CondKind.postedFault.index)) = true := by
  have k := State.Latched.workKept (.bay (baySource x.bay CondKind.postedFault.index))
  refine k.examine _ _ _ (k.readyIfDone e _ ?_)
  rw [State.stopEntry_posted (s := s.dequeue b e) hp]
  refine State.endPosted_latched (s := s.dequeue b e) hst hx ?_
  have hpolicy : (s.dequeue b e).bays[x.bay].policy = s.bays[x.bay].policy := by
    rw [State.dequeue, State.mapBay_get]
    split
    · next hc => rw [← hc]
    · rfl
  rw [hpolicy]
  exact hs

/-- When the entry has ended, no rule lets go what still waits in its domain. -/
theorem State.endEntry_obeys (h : s.tracker.taken.Nodup) : (s.endEntry b e st).tracker.SyncsWait s.tracker.entries[e].domain
    ∧ (s.tracker.entries[e].posted = true → (s.endEntry b e st).tracker.HoldsStopped s.tracker.entries[e].domain) := by
  have hn : (s.ending b e st).tracker.taken.Nodup := (s.ending_touched b e st).nodup h
  have hstart : (s.ending b e st).tracker.Obeys False True (fun _ => True) fun _ => True := ⟨False.elim, fun _ _ hd => absurd trivial hd, fun _ _ hd => absurd trivial hd⟩
  have hholds := State.obeys_examineHolds (ds := s.tracker.entries[e].lets) hn hstart (fun _ _ => trivial) fun _ _ => trivial
  have hsyncs := State.obeys_examineSyncs (ds := [s.tracker.entries[e].domain]) (State.examineHolds_nodup hn _) hholds fun _ _ => trivial
  have hready := (State.readyThese_alike ((s.ending b e st).letGo s.tracker.entries[e].lets [s.tracker.entries[e].domain]).tracker.taken _).obeys hsyncs
  rw [State.endEntry_eq]
  exact ⟨hready.syncs trivial _ fun hd => hd.2 (List.mem_singleton.2 rfl), fun hp => hready.holds trivial _ fun hd => hd.2 (Entry.mem_lets.2 ⟨hp, rfl⟩)⟩

/-- An entry that is neither HELD nor WAITING in the domain of the one that ends is as it was. -/
theorem State.endEntry_keeps (h : s.WorkSound) {x : EntryId} (hx : x ∈ s.tracker.taken) (hxe : x ≠ e)
    (hd : s.tracker.entries[x].domain ≠ s.tracker.entries[e].domain ∨ s.tracker.entries[x].state ≠ .held ∧ s.tracker.entries[x].state ≠ .waiting) :
    (s.endEntry b e st).tracker.entries[x] = s.tracker.entries[x] := by
  have hsame : s.Spares (s.ending b e st) x := State.ending_spares hxe
  have hlet : (s.ending b e st).Spares ((s.ending b e st).letGo s.tracker.entries[e].lets [s.tracker.entries[e].domain]) x := by
    refine .letGo (fun hs hm => ?_) fun hs hm => ?_
    · rw [hsame.entry] at hs hm
      exact hd.elim (fun hd => hd (Entry.mem_lets.1 hm).2.symm) fun hn => hn.1 hs
    · rw [hsame.entry] at hs hm
      exact hd.elim (fun hd => hd (List.mem_singleton.1 hm)) fun hn => hn.2 hs
  have hunanswered : s.tracker.entries[x].unanswered = false := Entry.unanswered_eq_false _ fun hs _ => h.response_of_done hx hs
  rw [State.endEntry_eq]
  exact (hlet.trans (.readyThese _ (by rw [hlet.entry, hsame.entry]; exact hunanswered))).entry.trans hsame.entry

/-- The entry is gone from the queue. -/
theorem State.endEntry_not_queued (h : s.tracker.taken.Nodup) (hs : ((s.ending b e st)).tracker.entries[e].state ≠ .held) : e ∉ (s.endEntry b e st).bays[b].queue := by
  obtain ⟨joined, hfills, -⟩ := State.examineHolds_fills ((s.ending_touched b e st).nodup h) s.tracker.entries[e].lets b
  have hqueue : (s.endEntry b e st).bays[b].queue = s.bays[b].queue.filter (· != e) ++ joined := by
    rw [State.endEntry_eq, State.examine, State.readyAll, State.readyThese_bays, State.letGo, State.examineSyncs_bays, hfills.queue, State.ending_bays, State.dequeue, State.mapBay_same]
  rw [hqueue, List.mem_append, mem_filter_ne]
  rintro (⟨-, hne⟩ | hj)
  · exact hne rfl
  · exact hs (hfills.released e hj).1

end

/-- Settles O50, from what the end of the entry and the examinations after it leave of each record and of each block. -/
theorem entryEndIsReported : Obligations.EntryEndIsReported := by
  intro s b e st h he
  dsimp only
  have hfiled := h.filed
  have htaken : e ∈ s.tracker.taken := hfiled.mem_taken he
  have hat : s.tracker.entries[e].state.atBay = true := hfiled.atBay he
  have hopen : s.tracker.entries[e].posted = false → s.tracker.entries[e].response = none := (hfiled.entry e).response_none htaken fun hd => by
    rw [hd] at hat
    cases hat
  have hne {x : EntryId} (hx : s.tracker.entries[x].state.atBay = false) : x ≠ e := fun hxe => by
    rw [hxe, hat] at hx; cases hx
  have hn : (s.ending b e st).tracker.taken.Nodup := (s.ending_touched b e st).nodup hfiled.taken
  obtain ⟨hsettled, hunanswered⟩ := State.ending_settled (b := b) (st := st) hopen
  have hspared := State.ending_spared (b := b) (st := st) hopen
  obtain ⟨hup, htables, hpending, hevents, -⟩ := (State.Beside.movesKept s).endEntry b e st (.refl s)
  refine ⟨State.endEntry_not_queued hfiled.taken ?_, hup, htables, hevents, hpending, fun x hx hxe hd => State.endEntry_keeps h hx hxe hd,
    (State.ending_ended hopen).spared hspared, fun hp hd => ?_, State.endEntry_obeys hfiled.taken, fun x hx hs hd t ht => ?_, fun x hx hw hd => ?_, State.endEntry_quiet,
    fun hp hst x hx => ⟨State.endEntry_flag h he hp hst, fun hc => ?_, State.endEntry_latched hp hst hx⟩⟩
  · rcases hsettled with hs | hs <;> rw [hs] <;> nofun
  · have hstop : (s.dequeue b e).stopEntry e st = (s.dequeue b e).goDone e st := State.stopEntry_done hp hd
    have hready : s.ending b e st = ((s.dequeue b e).goDone e st).readyDone e := by
      rw [State.ending, hstop]
      refine State.readyIfDone_unanswered _ _ ?_
      have hr : (s.dequeue b e).tracker.entries[e].response = none := hopen hp
      have hp' : (s.dequeue b e).tracker.entries[e].posted = false := hp
      rw [State.goDone_same, Entry.unanswered, hp', hr]
      rfl
    refine ⟨?_, ?_⟩
    · rw [hspared.entry, hready, State.readyDone, State.makeReady_same]
      rfl
    · obtain ⟨later, hlater⟩ := State.examine_nil_order [s.tracker.entries[e].domain] (s.ending b e st)
      refine ⟨later, ?_⟩
      rw [State.endEntry_of_not_posted hp, hlater, hready, State.readyDone, State.makeReady_order, List.append_assoc]
      rfl
  · have hxe : x ≠ e := hne (by rw [hs]; rfl)
    have hsame : s.Spares (s.ending b e st) x := State.ending_spares hxe
    have hx' : x ∈ (s.ending b e st).tracker.taken := hsame.listed.2 hx
    have htakes : (s.ending b e st).bays[t.bay].takesRequests = s.bays[t.bay].takesRequests := by
      rw [State.ending_bays, State.dequeue, State.mapBay_get]
      split
      · next hc => rw [← hc]; rfl
      · rfl
    have hresponse := (hfiled.entry x).response_none hx (by rw [hs]; nofun)
    have houtcome := State.letGo_held hn (hs := s.tracker.entries[e].lets) (ss := [s.tracker.entries[e].domain]) hx' (by rw [hsame.entry]; exact hs) (by rw [hsame.entry]; exact hresponse)
      (by rw [hsame.entry]; exact ht) id
    have hend : ((s.ending b e st).letGo s.tracker.entries[e].lets [s.tracker.entries[e].domain]).readyThese
        ((s.ending b e st).letGo s.tracker.entries[e].lets [s.tracker.entries[e].domain]).tracker.taken = s.endEntry b e st := rfl
    rw [hsame.entry, htakes, hend] at houtcome
    rcases houtcome with h1 | ⟨hm, hst, htk, hrec, hq⟩ | ⟨hm, hnot, hstate, hended⟩
    · exact .inl h1
    · exact .inr (.inl ⟨(Entry.mem_lets.1 hm).1, hst, (Bay.takesRequests_iff _).1 htk, hrec, hq⟩)
    · refine .inr (.inr ⟨(Entry.mem_lets.1 hm).1, hnot.imp_right fun hf hh => ?_, ?_, hended⟩)
      · rw [(Bay.takesRequests_iff _).2 hh] at hf
        cases hf
      · rcases hstate with ⟨hs', -⟩ | hs' <;> rw [hs'] <;> nofun
  · have hsame : s.Spares (s.ending b e st) x := State.ending_spares (hne (by rw [hw]; rfl))
    obtain ⟨hk, hp, hr⟩ := (hfiled.entry x).waiting hx hw
    have houtcome := State.examine_waiting hn (hs := s.tracker.entries[e].lets) (ss := [s.tracker.entries[e].domain]) (hsame.listed.2 hx) (by rw [hsame.entry]; exact hw)
      (by rw [hsame.entry]; exact hk) (by rw [hsame.entry]; exact hp) (by rw [hsame.entry]; exact hr)
    rw [hsame.entry, ← State.endEntry_eq] at houtcome
    exact houtcome
  · obtain ⟨more, hmore⟩ := State.endEntry_capture (b := b) hp hst hc
    refine ⟨more, ?_⟩
    rw [hmore, Entry.failureOffer, hx]
    rfl

end Sys2Proof.Machine

/-! The order in which an abort makes responses ready (R60, R62): what `bringing` makes of a list, and the response order after it. -/

namespace Sys2Proof.Machine

/-! ### The order of an abort -/

theorem mem_of_mem_bringing {q : List EntryId} {x : EntryId} (l : List EntryId) : ∀ {rest : List EntryId}, x ∈ bringing q rest l → x ∈ rest ∨ x ∈ l := by
  induction l with
  | nil => exact fun h => .inl h
  | cons e l ih =>
    intro rest h
    rw [bringing] at h
    split at h
    · next he =>
      rcases List.mem_append.1 h with h | h
      · exact .inl ((List.takeWhile_sublist _).subset h)
      · rcases List.mem_cons.1 h with rfl | h
        · exact .inr List.mem_cons_self
        · exact (ih h).imp (fun hd => (List.dropWhile_sublist _).subset (List.mem_of_mem_drop hd)) (List.mem_cons_of_mem e)
    · split at h
      · exact (ih h).imp_right (List.mem_cons_of_mem e)
      · rcases List.mem_cons.1 h with rfl | h
        · exact .inr List.mem_cons_self
        · exact (ih h).imp_right (List.mem_cons_of_mem e)

theorem bringing_nodup {q l : List EntryId} (hq : q.Nodup) (hl : l.Nodup) : (bringing q q l).Nodup := by
  rw [List.nodup_iff_count]
  intro x
  cases hx : q.contains x with
  | true =>
    rw [← List.count_filter (p := q.contains) hx, bringing_filter_in l fun _ => id]
    exact List.nodup_iff_count.1 hq x
  | false =>
    rw [← List.count_filter (p := fun e => !q.contains e) (by rw [hx]; rfl), bringing_filter_out l fun _ => id]
    exact List.nodup_iff_count.1 (hl.filter _) x

/-- Entries that stand in the list in their own order are brought by none. -/
theorem bringing_of_sublist {q : List EntryId} (l : List EntryId) (hl : l.Nodup) : ∀ {rest : List EntryId}, rest.Sublist l → (∀ x ∈ l, x ∈ q → x ∈ rest) → bringing q rest l = l := by
  induction l with
  | nil => exact fun h _ => List.sublist_nil.1 h
  | cons e l ih =>
    obtain ⟨he, hl⟩ := List.nodup_cons.1 hl
    intro rest h hin
    by_cases hr : e ∈ rest
    · obtain ⟨r, rfl, hsub⟩ := (List.sublist_cons_iff.1 h).resolve_left fun hs => he (hs.subset hr)
      have hlater : bringing q r l = l := ih hl hsub fun x hx hq => (List.mem_cons.1 (hin x (List.mem_cons_of_mem e hx) hq)).resolve_left fun hxe => he (hxe ▸ hx)
      rw [bringing, if_pos (List.contains_iff_mem.2 hr), List.takeWhile_cons_of_neg (by simp), List.dropWhile_cons_of_neg (by simp), List.drop_one, List.tail_cons, hlater]
      rfl
    · have hq : e ∉ q := fun hq => hr (hin e List.mem_cons_self hq)
      have hsub : rest.Sublist l := (List.sublist_cons_iff.1 h).resolve_right fun ⟨r, hr', _⟩ => hr (hr' ▸ List.mem_cons_self)
      rw [bringing, if_neg (mt List.contains_iff_mem.1 hr), if_neg (mt List.contains_iff_mem.1 hq), ih hl hsub fun x hx => hin x (List.mem_cons_of_mem e hx)]

/-- Where an entry outside `q` stands in `m`: behind all that stand before it in `l`, and ahead of it only what stands before it in `l` or what is brought there by an entry of `q` that does. -/
def PlacedBy (q l m : List EntryId) : Prop :=
  ∀ ahead x behind, m = ahead ++ x :: behind → x ∉ q →
    (∀ y ∈ behind, y ∉ l.takeWhile (· != x)) ∧ ∀ first y mid, ahead = first ++ y :: mid → x ∈ l.takeWhile (· != y) → ∃ a ∈ mid, a ∈ q ∧ a ∈ l.takeWhile (· != x)

theorem mem_takeWhile_cons {e x y : EntryId} {l : List EntryId} : y ∈ (e :: l).takeWhile (· != x) ↔ e ≠ x ∧ (y = e ∨ y ∈ l.takeWhile (· != x)) := by
  by_cases he : e = x
  · subst he
    rw [List.takeWhile_cons_of_neg (by simp)]
    exact iff_of_false List.not_mem_nil fun h => h.1 rfl
  · rw [List.takeWhile_cons_of_pos (p := (· != x)) (bne_iff_ne.2 he), List.mem_cons, and_iff_right he]

/-- One more entry in front, of `q` or not, in both lists. -/
theorem PlacedBy.cons {q l m : List EntryId} (h : PlacedBy q l m) {e : EntryId} (hm : e ∉ m) : PlacedBy q (e :: l) (e :: m) := by
  intro ahead x behind hsplit hx
  cases ahead with
  | nil =>
    obtain ⟨rfl, rfl⟩ := List.cons.inj hsplit
    exact ⟨fun y _ hy => (mem_takeWhile_cons.1 hy).1 rfl, fun first y mid hf => absurd hf (by simp)⟩
  | cons a ahead =>
    obtain ⟨rfl, rfl⟩ := List.cons.inj hsplit
    obtain ⟨hbehind, hahead⟩ := h ahead x behind rfl hx
    have hex : e ≠ x := fun hex => hm (hex ▸ List.mem_append_right _ List.mem_cons_self)
    refine ⟨fun y hy hb => ?_, fun first y mid hf hb => ?_⟩
    · rcases (mem_takeWhile_cons.1 hb).2 with rfl | hb
      · exact hm (List.mem_append_right _ (List.mem_cons_of_mem _ hy))
      · exact hbehind y hy hb
    · obtain ⟨hey, hb⟩ := mem_takeWhile_cons.1 hb
      cases first with
      | nil => exact absurd (List.cons.inj hf).1 hey
      | cons c first =>
        obtain ⟨-, rfl⟩ := List.cons.inj hf
        obtain ⟨a, ha, haq, hab⟩ := hahead first y mid rfl (hb.resolve_left hex.symm)
        exact ⟨a, ha, haq, mem_takeWhile_cons.2 ⟨hex, .inr hab⟩⟩

/-- One more entry of `q` in front of the list, which has come before. -/
theorem PlacedBy.passed {q l m : List EntryId} (h : PlacedBy q l m) {e : EntryId} (hq : e ∈ q) (hm : e ∉ m) : PlacedBy q (e :: l) m := by
  rintro ahead x behind rfl hx
  obtain ⟨hbehind, hahead⟩ := h ahead x behind rfl hx
  have hex : e ≠ x := fun hex => hx (hex ▸ hq)
  refine ⟨fun y hy hb => ?_, fun first y mid hf hb => ?_⟩
  · rcases (mem_takeWhile_cons.1 hb).2 with rfl | hb
    · exact hm (List.mem_append_right _ (List.mem_cons_of_mem _ hy))
    · exact hbehind y hy hb
  · obtain ⟨hey, hb⟩ := mem_takeWhile_cons.1 hb
    obtain ⟨a, ha, haq, hab⟩ := hahead first y mid hf (hb.resolve_left hex.symm)
    exact ⟨a, ha, haq, mem_takeWhile_cons.2 ⟨hex, .inr hab⟩⟩

/-- Entries of `q` that the entry in front, one of `q`, brings with it. -/
theorem PlacedBy.brought {q l m : List EntryId} {e : EntryId} (h : PlacedBy q (e :: l) (e :: m)) (hq : e ∈ q) {with_ : List EntryId} (hw : ∀ x ∈ with_, x ∈ q) :
    PlacedBy q (e :: l) (with_ ++ e :: m) := by
  intro ahead x behind hsplit hx
  rcases List.append_eq_append_iff.1 hsplit with ⟨later, rfl, hlater⟩ | ⟨later, rfl, hlater⟩
  · obtain ⟨hbehind, hahead⟩ := h later x behind hlater hx
    refine ⟨hbehind, fun first y mid hf hb => ?_⟩
    rcases List.append_eq_append_iff.1 hf with ⟨rest, rfl, hrest⟩ | ⟨rest, rfl, hrest⟩
    · exact hahead rest y mid hrest hb
    · cases rest with
      | nil =>
        rw [List.nil_append] at hrest
        exact hahead [] y mid hrest.symm hb
      | cons c rest =>
        obtain ⟨rfl, rfl⟩ := List.cons.inj hrest
        cases later with
        | nil => exact absurd ((List.cons.inj hlater).1 ▸ hq) hx
        | cons c later =>
          obtain ⟨rfl, -⟩ := List.cons.inj hlater
          exact ⟨e, List.mem_append_right _ List.mem_cons_self, hq, mem_takeWhile_cons.2 ⟨fun hex => hx (hex ▸ hq), .inl rfl⟩⟩
  · cases later with
    | nil =>
      rw [List.nil_append] at hlater
      exact absurd ((List.cons.inj hlater).1 ▸ hq) hx
    | cons c later =>
      obtain ⟨rfl, -⟩ := List.cons.inj hlater
      exact absurd (hw _ (List.mem_append_right _ List.mem_cons_self)) hx

theorem not_mem_dropWhile_drop {e : EntryId} {rest : List EntryId} (hn : rest.Nodup) : e ∉ (rest.dropWhile (· != e)).drop 1 := by
  have hd := (List.dropWhile_sublist (p := (· != e)) (l := rest)).nodup hn
  cases hr : rest.dropWhile (· != e) with
  | nil => exact List.not_mem_nil
  | cons y l =>
    have hy : y = e := by
      have := List.head_dropWhile_not (p := (· != e)) (l := rest) (by rw [hr]; simp)
      simp only [hr, List.head_cons] at this
      simpa using this
    rw [hr] at hd
    exact hy ▸ (List.nodup_cons.1 hd).1

theorem bringing_placedBy {q : List EntryId} (l : List EntryId) (hl : l.Nodup) : ∀ {rest : List EntryId}, rest.Nodup → (∀ x ∈ rest, x ∈ q) → PlacedBy q l (bringing q rest l) := by
  induction l with
  | nil =>
    intro rest _ h ahead x behind hsplit hx
    rw [bringing] at hsplit
    exact absurd (h x (by rw [hsplit]; exact List.mem_append_right _ List.mem_cons_self)) hx
  | cons e l ih =>
    obtain ⟨he, hl⟩ := List.nodup_cons.1 hl
    intro rest hn h
    by_cases hr : e ∈ rest
    · have hsub : ((rest.dropWhile (· != e)).drop 1).Sublist rest := (List.drop_sublist _ _).trans (List.dropWhile_sublist _)
      have hnot : e ∉ bringing q ((rest.dropWhile (· != e)).drop 1) l := fun hm => (mem_of_mem_bringing l hm).elim (not_mem_dropWhile_drop hn) he
      rw [bringing, if_pos (List.contains_iff_mem.2 hr)]
      exact ((ih hl (hsub.nodup hn) fun x hx => h x (hsub.subset hx)).cons hnot).brought (h e hr) fun x hx => h x ((List.takeWhile_sublist _).subset hx)
    · have hnot : e ∉ bringing q rest l := fun hm => (mem_of_mem_bringing l hm).elim hr he
      rw [bringing, if_neg (mt List.contains_iff_mem.1 hr)]
      split
      · next hq => exact (ih hl hn h).passed (List.contains_iff_mem.1 hq) hnot
      · exact (ih hl hn h).cons hnot

/-- The place of an entry outside `q` is told by the entries that are kept, where all of `q` is. -/
theorem PlacedBy.filter {q l m : List EntryId} (h : PlacedBy q l m) {p : EntryId → Bool} (hp : ∀ x ∈ q, p x = true) : PlacedBy q l (m.filter p) := by
  intro ahead x behind hsplit hx
  obtain ⟨m1, m2, rfl, rfl, hm2⟩ := List.filter_eq_append_iff.1 hsplit
  obtain ⟨m3, m4, rfl, hm3, hpx, rfl⟩ := List.filter_eq_cons_iff.1 hm2
  obtain ⟨hbehind, hahead⟩ := h (m1 ++ m3) x m4 (List.append_assoc ..).symm hx
  refine ⟨fun y hy => hbehind y (List.mem_filter.1 hy).1, fun first y mid hf hb => ?_⟩
  obtain ⟨m5, m6, rfl, rfl, hm6⟩ := List.filter_eq_append_iff.1 hf
  obtain ⟨m7, m8, rfl, hm7, hpy, rfl⟩ := List.filter_eq_cons_iff.1 hm6
  obtain ⟨a, ha, haq, hab⟩ := hahead (m5 ++ m7) y (m8 ++ m3) (by simp) hb
  refine ⟨a, List.mem_filter.2 ⟨(List.mem_append.1 ha).resolve_right fun hm => hm3 a hm (hp a haq), hp a haq⟩, haq, hab⟩

/-! ### The response order after an abort -/

/-- The responses made ready join the tail of the order as they are named. -/
theorem State.readyThese_order_eq {es : List EntryId} (hn : es.Nodup) (s : State) :
    (s.readyThese es).tracker.order = s.tracker.order ++ es.filter fun e => s.tracker.entries[e].unanswered := by
  refine State.foldl_untouched (step := fun v e => v.readyIfDone e) (P := fun passed v => v.tracker.order = s.tracker.order ++ passed.filter fun e => s.tracker.entries[e].unanswered) hn
    (fun v e => v.readyIfDone_touched e) (List.append_nil _).symm fun passed e v _ _ hspared hv => ?_
  rw [List.filter_append, ← List.append_assoc, ← hv]
  cases hu : s.tracker.entries[e].unanswered with
  | false =>
    rw [State.readyIfDone_settled v e (by rw [hspared.entry]; exact hu), List.filter_cons_of_neg (p := fun e : EntryId => s.tracker.entries[e].unanswered) (by rw [hu]; decide)]
    exact (List.append_nil _).symm
  | true =>
    rw [State.readyIfDone_unanswered v e (by rw [hspared.entry]; exact hu), List.filter_cons_of_pos (p := fun e : EntryId => s.tracker.entries[e].unanswered) hu]
    rfl

/-- What the responses of an abort make of the response order, where those of `answered`, and no others of the queue `q`, are to be made ready. -/
theorem Tracker.abortOrder_placed {t : Tracker} {q : List EntryId} (ht : t.taken.Nodup) (hq : q.Nodup) {ready : EntryId → Bool}
    (hready : ∀ e ∈ q, ready e = (!t.entries[e].posted && !t.entries[e].discard)) :
    let answered := q.filter fun e => !t.entries[e].posted && !t.entries[e].discard
    ((t.abortOrder q).filter ready).filter (fun e => q.contains e) = answered
      ∧ (((t.abortOrder q).filter ready).filter fun e => !q.contains e).Sublist t.taken
      ∧ (answered.Sublist t.taken → ((t.abortOrder q).filter ready).Sublist t.taken)
      ∧ ∀ ahead x behind, (t.abortOrder q).filter ready = ahead ++ x :: behind → x ∉ q →
          (∀ y ∈ behind, y ∉ t.before x) ∧ ∀ first y mid, ahead = first ++ y :: mid → x ∈ t.before y → ∃ a ∈ mid, a ∈ q ∧ a ∈ t.before x := by
  intro answered
  have hmem {e : EntryId} : e ∈ answered ↔ e ∈ q ∧ ready e = true := by
    rw [List.mem_filter]
    exact and_congr_right fun he => by rw [hready e he]
  have hready' (e : EntryId) (he : e ∈ answered) : ready e = true := (hmem.1 he).2
  refine ⟨?_, ?_, fun hsub => ?_, fun ahead x behind hsplit hx => ?_⟩
  · have hin := bringing_filter_in (q := answered) t.taken (rest := answered) fun _ => id
    refine Eq.trans ?_ hin
    rw [List.filter_filter]
    refine List.filter_congr fun e _ => ?_
    rw [Bool.eq_iff_iff, Bool.and_eq_true, List.contains_iff_mem, List.contains_iff_mem, hmem]
  · have hout := bringing_filter_out (q := answered) t.taken (rest := answered) fun _ => id
    have hsub : (((t.abortOrder q).filter ready).filter fun e => !q.contains e).Sublist ((t.abortOrder q).filter fun e => !answered.contains e) := by
      have hcomm : (((t.abortOrder q).filter ready).filter fun e => !q.contains e) = (((t.abortOrder q).filter fun e => !answered.contains e).filter fun e => ready e && !q.contains e) := by
        rw [List.filter_filter, List.filter_filter]
        refine List.filter_congr fun e _ => ?_
        rw [Bool.eq_iff_iff]
        simp only [Bool.and_eq_true, Bool.not_eq_true', Bool.eq_false_iff, Ne, List.contains_iff_mem]
        exact ⟨fun ⟨h1, h2⟩ => ⟨⟨h2, h1⟩, fun ha => h1 (hmem.1 ha).1⟩, fun ⟨⟨h1, h2⟩, _⟩ => ⟨h2, h1⟩⟩
      rw [hcomm]
      exact List.filter_sublist
    refine hsub.trans ?_
    rw [show (t.abortOrder q).filter (fun e => !answered.contains e) = _ from hout]
    exact List.filter_sublist
  · have hsame : t.abortOrder q = t.taken := bringing_of_sublist t.taken ht hsub fun _ _ => id
    rw [hsame]
    exact List.filter_sublist
  · obtain ⟨hbehind, hahead⟩ := ((bringing_placedBy t.taken ht (hq.filter _) fun _ => id).filter hready') ahead x behind hsplit fun ha => hx (hmem.1 ha).1
    refine ⟨hbehind, fun first y mid hf hb => ?_⟩
    obtain ⟨a, ha, haq, hab⟩ := hahead first y mid hf hb
    exact ⟨a, ha, (hmem.1 haq).1, hab⟩

end Sys2Proof.Machine

/-! The first half of an abort: the entries of the queue end one after the other, and the HELD entries for the bay are marked stale (R50, R55, R62). -/

namespace Sys2Proof.Machine

/-! ### The response order while entries end (R43, R60) -/

section
variable {s : State} {e : EntryId} {st : Status}

theorem Tracker.Answering.not_mem_order {t : Tracker} (h : t.Answering) (hr : t.entries[e].response = none) : e ∉ t.order := fun hm => by
  obtain ⟨-, hs⟩ := (h.2 e).1 hm
  rw [hr] at hs
  cases hs

theorem Tracker.Answering.filter_order {t : Tracker} (h : t.Answering) (hr : t.entries[e].response = none) : t.order.filter (· != e) = t.order :=
  List.filter_eq_self.2 fun _ hx => bne_iff_ne.2 fun hxe => h.not_mem_order hr (hxe ▸ hx)

/-- The end of an entry that has no response ready, or is posted, leaves the response order. -/
theorem State.endPosted_order (h : s.tracker.Answering) : (s.endPosted e st).tracker.order = s.tracker.order := by
  cases hr : s.tracker.entries[e].response with
  | some r => exact (State.endPosted_of_response (by rw [hr]; rfl)).2.2
  | none => rw [(State.endPosted_of_no_response hr).2.2, h.filter_order hr]

theorem State.stopEntry_order (h : s.tracker.Answering) (hr : s.tracker.entries[e].posted = false → s.tracker.entries[e].response = none) :
    (s.stopEntry e st).tracker.order = s.tracker.order :=
  State.stopEntry_cases (P := fun v => v.tracker.order = s.tracker.order) (fun _ => State.endPosted_order h) (fun hp _ => (s.freeEntry_order e).trans (h.filter_order (hr hp))) fun _ _ => rfl

end

theorem State.examineHolds_order {s : State} (h : s.tracker.Answering) (ds : List DomainId) : (s.examineHolds ds).tracker.order = s.tracker.order := by
  refine (foldl_kept (P := fun v : State => v.tracker.Answering ∧ v.tracker.order = s.tracker.order) (fun v e hv => ?_) _ s ⟨h, rfl⟩).2
  obtain ⟨ha, ho⟩ := hv
  refine State.holdStep_cases (P := fun w => w.tracker.Answering ∧ w.tracker.order = s.tracker.order) (fun _ => ⟨ha, ho⟩) (fun x _ _ _ => ⟨?_, ho⟩)
    (fun _ _ _ _ => ⟨ha.quits (v.endPosted_quits e _), (State.endPosted_order ha).trans ho⟩) fun _ _ _ _ => ⟨ha.quits (v.goDone_quits e _), ho⟩
  exact ha.touched (v.place_touched e x.bay) rfl rfl (by rw [State.place_same])

/-! ### Several entries end (R62) -/

/-- Every entry of `q` ends with `st`. -/
def State.stopAll (q : List EntryId) (st : Status) (s : State) : State := q.foldl (fun s e => s.stopEntry e st) s

section
variable {s : State} {q : List EntryId} {st : Status} (hn : q.Nodup)

theorem State.stopAll_bays (q : List EntryId) (st : Status) (s : State) : (s.stopAll q st).bays = s.bays :=
  foldl_kept (P := fun v : State => v.bays = s.bays) (fun v e hv => (v.stopEntry_bays e st).trans hv) q s rfl

theorem State.stopAll_spares {x : EntryId} (hx : x ∉ q) : s.Spares (s.stopAll q st) x := .foldl (fun v e => v.stopEntry_touched e st) fun _ hm => absurd hm hx

theorem State.stopAll_nodup (h : s.tracker.taken.Nodup) : (s.stopAll q st).tracker.taken.Nodup :=
  foldl_kept (P := fun v : State => v.tracker.taken.Nodup) (fun v e hv => (v.stopEntry_touched e st).nodup hv) q s h

theorem State.stopAll_taken_subset {x : EntryId} (hx : x ∈ (s.stopAll q st).tracker.taken) : x ∈ s.tracker.taken :=
  State.foldl_taken_subset (fun v e => v.stopEntry_touched e st) q s hx

include hn

theorem State.stopAll_stopped {e : EntryId} (he : e ∈ q) : (s.stopAll q st).tracker.Stopped e s.tracker.entries[e] st := by
  obtain ⟨v, -, -, hspared, -, hlater⟩ := State.foldl_entry (K := fun _ => True) (step := fun v x => v.stopEntry x st) hn trivial (fun v x => v.stopEntry_touched x st) (fun _ _ _ _ => trivial) he
  exact hspared.entry ▸ (v.stopEntry_stopped e st).spared hlater

theorem State.stopAll_order (h : s.tracker.Answering) (hr : ∀ e ∈ q, s.tracker.entries[e].posted = false → s.tracker.entries[e].response = none) :
    (s.stopAll q st).tracker.Answering ∧ (s.stopAll q st).tracker.order = s.tracker.order := by
  refine State.foldl_untouched (step := fun v e => v.stopEntry e st) (P := fun _ v => v.tracker.Answering ∧ v.tracker.order = s.tracker.order) hn (fun v e => v.stopEntry_touched e st) ⟨h, rfl⟩
    fun passed e v he _ hspared hv => ?_
  obtain ⟨ha, ho⟩ := hv
  exact ⟨ha.quits (v.stopEntry_quits e st), (State.stopEntry_order ha (by rw [hspared.entry]; exact hr e he)).trans ho⟩

/-- The flag of a domain is set where an entry of it that ends is posted, and is as it was otherwise. -/
theorem State.stopAll_flag (hst : st ≠ .ok) (d : DomainId) :
    (s.stopAll q st).tracker.postedFault[d] = (s.tracker.postedFault[d] || q.any fun e => s.tracker.entries[e].posted && s.tracker.entries[e].domain == d) := by
  refine State.foldl_untouched (step := fun v e => v.stopEntry e st)
    (P := fun passed v => v.tracker.postedFault[d] = (s.tracker.postedFault[d] || passed.any fun e => s.tracker.entries[e].posted && s.tracker.entries[e].domain == d)) hn
    (fun v e => v.stopEntry_touched e st) (Bool.or_false _).symm fun passed e v _ _ hspared hv => ?_
  have hsame := hspared.entry
  rw [List.any_append, ← Bool.or_assoc, ← hv, List.any_cons, List.any_nil, Bool.or_false, ← hsame]
  refine State.stopEntry_cases (P := fun w => w.tracker.postedFault[d] = (v.tracker.postedFault[d] || (v.tracker.entries[e].posted && v.tracker.entries[e].domain == d)))
    (fun hp => ?_) (fun hp _ => ?_) fun hp _ => ?_
  · rw [State.endPosted_postedFault hst, hp, Bool.true_and]
    by_cases hd : v.tracker.entries[e].domain = d
    · simp only [hd, beq_self_eq_true, Bool.or_true]
      exact Vector.getElem_set_self d.isLt
    · rw [beq_false_of_ne hd, Bool.or_false]
      exact Vector.getElem_set_ne v.tracker.entries[e].domain.isLt d.isLt fun h => hd (Fin.ext h)
  · rw [hp, Bool.false_and, Bool.or_false]; rfl
  · rw [hp, Bool.false_and, Bool.or_false]; rfl

/-- Where none of them is posted, nothing is offered and nothing rises. -/
theorem State.stopAll_quiet (h : ∀ e ∈ q, s.tracker.entries[e].posted = false) : (s.stopAll q st).capture = s.capture ∧ (s.stopAll q st).events = s.events := by
  refine State.foldl_untouched (step := fun v e => v.stopEntry e st) (P := fun _ v => v.capture = s.capture ∧ v.events = s.events) hn (fun v e => v.stopEntry_touched e st) ⟨rfl, rfl⟩
    fun passed e v he _ hspared hv => ?_
  have hp : v.tracker.entries[e].posted = false := by rw [hspared.entry]; exact h e he
  exact State.stopEntry_cases (P := fun w => w.capture = s.capture ∧ w.events = s.events) (fun hp' => absurd (hp'.symm.trans hp) (by decide)) (fun _ _ => hv) fun _ _ => hv

/-- The first posted one of them fills an invalid capture record. -/
theorem State.stopAll_capture (hst : st ≠ .ok) (h : s.capture = none) {e : EntryId} {rest : List EntryId} (he : (q.filter fun e => s.tracker.entries[e].posted) = e :: rest) :
    ∃ more, (s.stopAll q st).capture = some { offer := s.tracker.entries[e].failureOffer st, more := more } := by
  obtain ⟨before, after, rfl, hbefore, hp, -⟩ := List.filter_eq_cons_iff.1 he
  have hnb : before.Nodup := (List.nodup_append.1 hn).1
  have hnot : e ∉ before := fun hm => (List.nodup_append.1 hn).2.2 e hm e List.mem_cons_self rfl
  have hfirst : ((s.stopAll before st).capture = none) := (State.stopAll_quiet hnb fun x hx => Bool.not_eq_true _ ▸ hbefore x hx).1.trans h
  have hentry := (State.stopAll_spares (s := s) (st := st) hnot).entry
  have hposted : (s.stopAll before st).tracker.entries[e].posted = true := by rw [hentry]; exact hp
  have hoffered := State.endPosted_capture (e := e) hst hfirst
  rw [← State.stopEntry_posted hposted, hentry] at hoffered
  have k := State.Captured.workKept (s.tracker.entries[e].failureOffer st)
  have hall := foldl_kept (P := fun v : State => ∃ more, v.capture = some { offer := s.tracker.entries[e].failureOffer st, more := more }) (fun v x hv => k.stopEntry x st v hv) after _ hoffered
  rw [State.stopAll, List.foldl_append, List.foldl_cons]
  exact hall

/-- A posted one of them raises POSTED_FAULT at its bay. -/
theorem State.stopAll_latched (hst : st ≠ .ok) {e : EntryId} (he : e ∈ q) (hp : s.tracker.entries[e].posted = true) {x : Translation} (hx : s.tracker.entries[e].xlat = some x)
    (hs : s.bays[x.bay].policy.sense.getLsbD CondKind.postedFault.index = true) : (s.stopAll q st).events.isPending (.bay (baySource x.bay CondKind.postedFault.index)) = true := by
  have k := State.Latched.workKept (.bay (baySource x.bay CondKind.postedFault.index))
  obtain ⟨v, after, hbays, hspared, hfold, -⟩ := State.foldl_entry (K := fun v => v.bays = s.bays) (step := fun v x => v.stopEntry x st) hn rfl (fun v x => v.stopEntry_touched x st)
    (fun v hv x _ => (v.stopEntry_bays x st).trans hv) he
  have hsame := hspared.entry
  have hraised : (v.stopEntry e st).events.isPending (.bay (baySource x.bay CondKind.postedFault.index)) = true := by
    rw [State.stopEntry_posted (hsame ▸ hp)]
    exact State.endPosted_latched hst (hsame ▸ hx) (by rw [hbays]; exact hs)
  rw [State.stopAll, hfold]
  exact foldl_kept (P := fun w : State => w.events.isPending (.bay (baySource x.bay CondKind.postedFault.index)) = true) (fun w y hw => k.stopEntry y st w hw) after _ hraised

end

/-! ### The HELD entries for the bay (R55) -/

theorem State.markStale_eq (b : BayId) (s : State) : ∃ es, s.markStale b = { s with tracker := { s.tracker with entries := es } } := by
  refine foldl_kept (P := fun v : State => ∃ es, v = { s with tracker := { s.tracker with entries := es } }) (fun v e hv => ?_) _ s ⟨_, rfl⟩
  obtain ⟨es, rfl⟩ := hv
  split
  · exact ⟨_, rfl⟩
  · exact ⟨es, rfl⟩

/-- Between `s` and `v` the entry `x` is as it was but for its stale mark, which it may have got where it was HELD, and has where it was HELD for `b`. -/
structure State.MarkedFor (s v : State) (b : BayId) (x : EntryId) : Prop where
  entry : v.tracker.entries[x] = { s.tracker.entries[x] with stale := v.tracker.entries[x].stale }
  listed : x ∈ v.tracker.taken ↔ x ∈ s.tracker.taken
  same : s.tracker.entries[x].state ≠ .held → v.tracker.entries[x] = s.tracker.entries[x]
  stale : x ∈ s.tracker.taken → s.tracker.entries[x].state = .held → ∀ t, s.tracker.entries[x].xlat = some t → t.bay = b → v.tracker.entries[x].stale = true

namespace State.MarkedFor

variable {s v w : State} {b : BayId} {x : EntryId}

theorem state (h : s.MarkedFor v b x) : v.tracker.entries[x].state = s.tracker.entries[x].state := by rw [h.entry]

theorem domain (h : s.MarkedFor v b x) : v.tracker.entries[x].domain = s.tracker.entries[x].domain := by rw [h.entry]

theorem posted (h : s.MarkedFor v b x) : v.tracker.entries[x].posted = s.tracker.entries[x].posted := by rw [h.entry]

theorem xlat (h : s.MarkedFor v b x) : v.tracker.entries[x].xlat = s.tracker.entries[x].xlat := by rw [h.entry]

theorem response (h : s.MarkedFor v b x) : v.tracker.entries[x].response = s.tracker.entries[x].response := by rw [h.entry]

theorem of_spared (h : s.Spares v x) (hv : v.MarkedFor w b x) : s.MarkedFor w b x where
  entry := by rw [← h.entry]; exact hv.entry
  listed := hv.listed.trans h.listed
  same := by rw [← h.entry]; exact hv.same
  stale hx := by rw [← h.entry]; exact hv.stale (h.listed.2 hx)

end State.MarkedFor

theorem State.markStale_marked {s : State} (hn : s.tracker.taken.Nodup) (b : BayId) (x : EntryId) : s.MarkedFor (s.markStale b) b x := by
  have hlisted : x ∈ (s.markStale b).tracker.taken ↔ x ∈ s.tracker.taken := by
    obtain ⟨es, hes⟩ := s.markStale_eq b
    rw [hes]
  by_cases hx : x ∈ s.tracker.taken
  · obtain ⟨v, -, -, hspared, -, hlater⟩ := State.foldl_entry (K := fun _ => True)
      (step := fun v e => if v.tracker.entries[e].state == .held && v.tracker.entries[e].xlat.any (·.bay == b) then v.mapEntry e fun y => { y with stale := true } else v) hn trivial
      (State.markStale_touched b) (fun _ _ _ _ => trivial) hx
    have hentry := hlater.entry
    by_cases hc : (v.tracker.entries[x].state == .held && v.tracker.entries[x].xlat.any (·.bay == b)) = true
    · rw [if_pos hc, State.mapEntry_same, hspared.entry] at hentry
      have hmark : (s.markStale b).tracker.entries[x] = { s.tracker.entries[x] with stale := true } := hentry
      rw [hspared.entry, Bool.and_eq_true, beq_iff_eq] at hc
      exact ⟨by rw [hmark], hlisted, fun hs => absurd hc.1 hs, fun _ _ _ _ _ => by rw [hmark]⟩
    · rw [if_neg hc, hspared.entry] at hentry
      have hkept : (s.markStale b).tracker.entries[x] = s.tracker.entries[x] := hentry
      refine ⟨by rw [hkept], hlisted, fun _ => hkept, fun _ hs t ht hb => absurd ?_ hc⟩
      rw [hspared.entry, hs, ht, ← hb]
      simp
  · have hspared : s.Spares (s.markStale b) x := .foldl (State.markStale_touched b) fun _ hm => absurd hm hx
    exact ⟨by rw [hspared.entry], hlisted, fun _ => hspared.entry, fun hm => absurd hm hx⟩

end Sys2Proof.Machine

/-! An abort (R50, R55, R60, R62): what it leaves of each entry, of the bays and of the response order, and of the blocks beside them. -/

namespace Sys2Proof.Machine

theorem Tracker.Stopped.state {t : Tracker} {e : EntryId} {y : Entry} {st : Status} (h : t.Stopped e y st) : t.entries[e].state = .done ∨ t.entries[e].state = .free := by
  rcases h with ⟨-, ⟨-, h⟩ | ⟨-, h, -⟩⟩ | ⟨-, -, h, -⟩ | ⟨-, -, h⟩
  · rw [h]; exact .inl rfl
  · rw [h]; exact .inr rfl
  · rw [h]; exact .inr rfl
  · rw [h]; exact .inl rfl

theorem Tracker.Stopped.state_ne {t : Tracker} {e : EntryId} {y : Entry} {st : Status} (h : t.Stopped e y st) {st' : EntryState} (hd : st' ≠ .done) (hf : st' ≠ .free) :
    t.entries[e].state ≠ st' :=
  fun hs => h.state.elim (fun h' => hd (hs.symm.trans h')) fun h' => hf (hs.symm.trans h')

/-- Of what has been stopped, what is to be answered is neither posted nor discarded. -/
theorem Tracker.Stopped.unanswered {t : Tracker} {e : EntryId} {y : Entry} {st : Status} (h : t.Stopped e y st) (hr : y.posted = false → y.response = none) :
    t.entries[e].unanswered = (!y.posted && !y.discard) := by
  rcases h with ⟨hp, h⟩ | ⟨hp, hd, h, -⟩ | ⟨hp, hd, h⟩
  · rw [h.unanswered, hp]; rfl
  · rw [h, hp, hd]; rfl
  · rw [h, Entry.unanswered, hp, hr hp, hd]; rfl

theorem State.examineSyncs_order (ds : List DomainId) (s : State) : (s.examineSyncs ds).tracker.order = s.tracker.order :=
  foldl_kept (P := fun v : State => v.tracker.order = s.tracker.order) (fun v e hv => (v.syncStep_order ds e).trans hv) _ s rfl

/-! ### The part when the entries have ended and those HELD for the bay are stale (R55, R62) -/

/-- The part in an abort of bay `b`, before the examinations. -/
def State.aborting (b : BayId) (f : Bay → Bay) (st : Status) (s : State) : State := ((s.mapBay b f).stopAll s.bays[b].queue st).markStale b

/-- The domains of the posted entries of a queue. -/
def Tracker.posters (q : List EntryId) (t : Tracker) : List DomainId := (q.filter fun e => t.entries[e].posted).map fun e => t.entries[e].domain

theorem Tracker.mem_posters {t : Tracker} {q : List EntryId} {d : DomainId} : d ∈ t.posters q ↔ ∃ e ∈ q, t.entries[e].posted = true ∧ t.entries[e].domain = d := by
  rw [Tracker.posters, List.mem_map]
  exact exists_congr fun e => by rw [List.mem_filter, and_assoc]

theorem State.abortBay_eq (b : BayId) (f : Bay → Bay) (st : Status) (s : State) :
    s.abortBay b f st = ((s.aborting b f st).letGo (s.tracker.posters s.bays[b].queue) (s.bays[b].queue.map fun e => s.tracker.entries[e].domain)).readyThese
      (s.tracker.abortOrder s.bays[b].queue) := rfl

section
variable {s : State} {X : EntryId → Prop} {b : BayId} {f : Bay → Bay} {st : Status} {e : EntryId}

theorem State.aborting_bays : (s.aborting b f st).bays = (s.mapBay b f).bays := by
  obtain ⟨es, hes⟩ := ((s.mapBay b f).stopAll s.bays[b].queue st).markStale_eq b
  rw [State.aborting, hes]
  exact State.stopAll_bays ..

theorem State.aborting_nodup (h : s.tracker.taken.Nodup) : (s.aborting b f st).tracker.taken.Nodup := by
  obtain ⟨es, hes⟩ := ((s.mapBay b f).stopAll s.bays[b].queue st).markStale_eq b
  rw [State.aborting, hes]
  exact State.stopAll_nodup h

theorem State.aborting_taken_subset (he : e ∈ (s.aborting b f st).tracker.taken) : e ∈ s.tracker.taken := by
  obtain ⟨es, hes⟩ := ((s.mapBay b f).stopAll s.bays[b].queue st).markStale_eq b
  rw [State.aborting, hes] at he
  exact State.stopAll_taken_subset (s := s.mapBay b f) he

theorem State.letGo_aborting_taken {hs ss : List DomainId} (he : e ∈ ((s.aborting b f st).letGo hs ss).tracker.taken) : e ∈ s.tracker.taken :=
  State.aborting_taken_subset (State.letGo_taken_subset _ _ _ he)

/-- An entry that is not of the queue may get the stale mark. -/
theorem State.aborting_marked (h : s.tracker.taken.Nodup) (he : e ∉ s.bays[b].queue) : s.MarkedFor (s.aborting b f st) b e :=
  have hspared : (s.mapBay b f).Spares ((s.mapBay b f).stopAll s.bays[b].queue st) e := State.stopAll_spares he
  .of_spared (v := (s.mapBay b f).stopAll s.bays[b].queue st) ⟨hspared.entry, hspared.listed⟩ (State.markStale_marked (State.stopAll_nodup (s := s.mapBay b f) h) b e)

theorem State.aborting_capture : (s.aborting b f st).capture = ((s.mapBay b f).stopAll s.bays[b].queue st).capture := State.markStale_capture _ _

theorem State.aborting_events : (s.aborting b f st).events = ((s.mapBay b f).stopAll s.bays[b].queue st).events := by
  obtain ⟨es, hes⟩ := ((s.mapBay b f).stopAll s.bays[b].queue st).markStale_eq b
  rw [State.aborting, hes]

theorem State.aborting_postedFault : (s.aborting b f st).tracker.postedFault = ((s.mapBay b f).stopAll s.bays[b].queue st).tracker.postedFault := by
  obtain ⟨es, hes⟩ := ((s.mapBay b f).stopAll s.bays[b].queue st).markStale_eq b
  rw [State.aborting, hes]

theorem State.Filed.queue_response (h : s.Filed X) (he : e ∈ s.bays[b].queue) (hp : s.tracker.entries[e].posted = false) : s.tracker.entries[e].response = none :=
  (h.entry e).response_none (h.mem_taken he) (fun hd => by have hat := h.atBay he; rw [hd] at hat; cases hat) hp

/-- An entry of the queue has ended. -/
theorem State.aborting_stopped (h : s.Filed X) (he : e ∈ s.bays[b].queue) : (s.aborting b f st).tracker.Stopped e s.tracker.entries[e] st := by
  have hstopped := State.stopAll_stopped (s := s.mapBay b f) (st := st) (h.queues b) he
  exact hstopped.spared (.markStale b (hstopped.state_ne (by decide) (by decide)))

/-- It is out of the way of what follows. -/
theorem State.aborting_spared (h : s.Filed X) (he : e ∈ s.bays[b].queue) (hs ss : List DomainId) : (s.aborting b f st).Spares ((s.aborting b f st).letGo hs ss) e := by
  have hstopped := State.aborting_stopped (f := f) (st := st) h he
  exact .letGo (fun hh => absurd hh (hstopped.state_ne (by decide) (by decide))) fun hw => absurd hw (hstopped.state_ne (by decide) (by decide))

/-- What is HELD or WAITING is not of the queue, and was that before. -/
theorem State.aborting_not_queued (h : s.Filed X) {st' : EntryState} (hs : (s.aborting b f st).tracker.entries[e].state = st') (hd : st' ≠ .done) (hf : st' ≠ .free) :
    e ∉ s.bays[b].queue ∧ s.tracker.entries[e].state = st' := by
  have hq : e ∉ s.bays[b].queue := fun hq => (State.aborting_stopped h hq).state_ne hd hf hs
  exact ⟨hq, (State.aborting_marked h.taken hq).state.symm.trans hs⟩

theorem State.aborting_order (h : s.Filed X) (ha : s.tracker.Answering) : (s.aborting b f st).tracker.Answering ∧ (s.aborting b f st).tracker.order = s.tracker.order := by
  obtain ⟨hstop, horder⟩ := State.stopAll_order (s := s.mapBay b f) (st := st) (h.queues b) ha fun e he => h.queue_response he
  have hn : ((s.mapBay b f).stopAll s.bays[b].queue st).tracker.taken.Nodup := State.stopAll_nodup (s := s.mapBay b f) h.taken
  obtain ⟨es, hes⟩ := ((s.mapBay b f).stopAll s.bays[b].queue st).markStale_eq b
  have ho : (s.aborting b f st).tracker.order = ((s.mapBay b f).stopAll s.bays[b].queue st).tracker.order := by rw [State.aborting, hes]
  refine ⟨hstop.congr ho (by rw [State.aborting, hes]) fun x => ?_, ho.trans horder⟩
  rw [State.aborting, (State.markStale_marked hn b x).response]

end

/-! ### What an abort leaves -/

section
variable {s : State} {X : EntryId → Prop} {b : BayId} {f : Bay → Bay} {st : Status} {e : EntryId}

theorem State.abortBay_bays : (s.abortBay b f st).bays = ((s.aborting b f st).examineHolds (s.tracker.posters s.bays[b].queue)).bays := by
  rw [State.abortBay_eq, State.readyThese_bays, State.letGo, State.examineSyncs_bays]

/-- An empty bay that takes no requests stays as it is while the tracker works. -/
theorem State.shut_workKept {y : Bay} (hf : y.takesRequests = false) (hq : y.queue = []) (b : BayId) : WorkKept fun v => v.bays[b] = y where
  tracker _ _ h := h
  offer v o h := by rw [State.offer_bays]; exact h
  latch v it h := by rw [State.latch_bays]; exact h
  enqueue v c e ht h := by
    rw [State.mapBay_get]
    split
    · next hc =>
      subst hc
      rw [h, hf] at ht
      cases ht
    · exact h
  dequeue v c e h := by
    rw [State.dequeue, State.mapBay_get]
    split
    · next hc =>
      subst hc
      simp only [h, hq, List.filter_nil]
      rw [← hq]
    · exact h

/-- The bay itself, where it takes no requests. -/
theorem State.abortBay_bay (hf : (f s.bays[b]).takesRequests = false) (hq : (f s.bays[b]).queue = []) : (s.abortBay b f st).bays[b] = f s.bays[b] :=
  (State.shut_workKept hf hq b).abortBay b f st s (State.mapBay_same ..)

/-- Another bay gets entries that were HELD for it. -/
theorem State.abortBay_others (h : s.Filed X) {x : BayId} (hx : x ≠ b) : ∃ released, (s.abortBay b f st).bays[x] = s.bays[x].arrivals released
    ∧ ∀ e ∈ released, s.tracker.entries[e].state = .held ∧ (s.abortBay b f st).tracker.entries[e].state = .queued := by
  obtain ⟨joined, hfills, -⟩ := State.examineHolds_fills (State.aborting_nodup (b := b) (f := f) (st := st) h.taken) (s.tracker.posters s.bays[b].queue) x
  refine ⟨joined, ?_, fun e he => ?_⟩
  · rw [State.abortBay_bays, hfills.bay, State.aborting_bays, State.mapBay_other hx]
  · obtain ⟨hheld, -, hqueued⟩ := hfills.released e he
    refine ⟨(State.aborting_not_queued h hheld (by decide) (by decide)).2, ?_⟩
    have hlater : ((s.aborting b f st).examineHolds (s.tracker.posters s.bays[b].queue)).Spares
        ((s.aborting b f st).letGo (s.tracker.posters s.bays[b].queue) (s.bays[b].queue.map fun e => s.tracker.entries[e].domain)) e := .examineSyncs (by rw [hqueued]; nofun)
    have hready := hlater.trans (.readyThese (s.tracker.abortOrder s.bays[b].queue) (by rw [hlater.entry, hqueued]; rfl))
    rw [State.abortBay_eq, hready.entry, hqueued]

theorem State.abortBay_ended (h : s.Filed X) (he : e ∈ s.bays[b].queue) : (s.abortBay b f st).tracker.Ended e s.tracker.entries[e] st :=
  ((State.aborting_stopped h he).spared (State.aborting_spared h he _ _)).ended (fun hp => h.queue_response he hp) fun _ _ => Tracker.mem_abortOrder_of_taken _ (h.mem_taken he)

/-- What the examination of the hold lists leaves WAITING was so before, with the same record. -/
theorem State.aborting_waiting (h : s.Filed X) {ds : List DomainId} (he : e ∈ ((s.aborting b f st).examineHolds ds).tracker.taken)
    (hw : ((s.aborting b f st).examineHolds ds).tracker.entries[e].state = .waiting) : e ∈ s.tracker.taken ∧ s.tracker.entries[e] = ((s.aborting b f st).examineHolds ds).tracker.entries[e] := by
  have he' := State.examineHolds_taken_subset he
  have hsame := (State.examineHolds_spares_waiting (State.aborting_nodup h.taken) he' hw).entry
  obtain ⟨hq, hs⟩ := State.aborting_not_queued h (hsame ▸ hw) (by decide) (by decide)
  exact ⟨State.aborting_taken_subset he', (hsame.trans ((State.aborting_marked h.taken hq).same (by rw [hs]; decide))).symm⟩

theorem State.abortBay_flag (h : s.Filed X) (d : DomainId) :
    (s.abortBay b f st).tracker.postedFault[d] = ((s.aborting b f st).examineHolds (s.tracker.posters s.bays[b].queue)).tracker.postedFault[d]
      ∨ (s.abortBay b f st).tracker.postedFault[d] = false ∧ s.FlagTaken (s.abortBay b f st) d := by
  rw [State.abortBay_eq, State.readyThese_postedFault, State.letGo]
  refine (State.examineSyncs_flag (State.examineHolds_nodup (State.aborting_nodup h.taken) _) _ d).imp_right fun ⟨hf, ht⟩ => ⟨hf, ?_⟩
  refine ht.flagTaken (fun y hy hw => (State.aborting_waiting h hy hw).2) (fun y hy hw => ?_) fun y hy => ?_
  · obtain ⟨hy', hsame⟩ := State.aborting_waiting h hy hw
    rw [← hsame] at hw ⊢
    obtain ⟨-, hp, hr⟩ := (h.entry y).waiting hy' hw
    exact ⟨hp, hr⟩
  · exact Tracker.mem_abortOrder_of_taken _ (State.aborting_taken_subset (State.examineHolds_taken_subset hy))

theorem State.abortBay_order (h : s.Filed X) (ha : s.tracker.Answering) :
    ∃ ready : EntryId → Bool, (s.abortBay b f st).tracker.order = s.tracker.order ++ (s.tracker.abortOrder s.bays[b].queue).filter ready
      ∧ ∀ e ∈ s.bays[b].queue, ready e = (!s.tracker.entries[e].posted && !s.tracker.entries[e].discard) := by
  obtain ⟨hanswering, horder⟩ := State.aborting_order (b := b) (f := f) (st := st) h ha
  refine ⟨fun e => ((s.aborting b f st).letGo (s.tracker.posters s.bays[b].queue) (s.bays[b].queue.map fun e => s.tracker.entries[e].domain)).tracker.entries[e].unanswered, ?_, fun e he => ?_⟩
  · have hnodup : (s.tracker.abortOrder s.bays[b].queue).Nodup := bringing_nodup ((h.queues b).filter _) h.taken
    rw [State.abortBay_eq, State.readyThese_order_eq hnodup, State.letGo, State.examineSyncs_order, State.examineHolds_order hanswering, horder]
  · exact ((State.aborting_stopped h he).spared (State.aborting_spared h he _ _)).unanswered fun hp => h.queue_response he hp

/-- A posted entry of the queue sets the flag of its domain, where no SYNC takes it. -/
theorem State.abortBay_faultFlag (h : s.Filed X) (hst : st ≠ .ok) (he : e ∈ s.bays[b].queue) (hp : s.tracker.entries[e].posted = true) :
    (s.abortBay b f st).tracker.postedFault[s.tracker.entries[e].domain] = true ∨ s.FlagTaken (s.abortBay b f st) s.tracker.entries[e].domain := by
  refine (State.abortBay_flag h s.tracker.entries[e].domain).imp (fun hf => hf.trans (State.examineHolds_flags _ _ _ ?_)) And.right
  rw [State.aborting_postedFault, State.stopAll_flag (s := s.mapBay b f) (h.queues b) hst, Bool.or_eq_true, List.any_eq_true]
  exact .inr ⟨e, he, Bool.and_eq_true_iff.2 ⟨hp, beq_self_eq_true _⟩⟩

theorem State.abortBay_otherFlags (h : s.Filed X) (hst : st ≠ .ok) {d : DomainId} (hnone : ∀ e ∈ s.bays[b].queue, s.tracker.entries[e].domain = d → s.tracker.entries[e].posted = false) :
    (s.abortBay b f st).tracker.postedFault[d] = s.tracker.postedFault[d] ∨ (s.abortBay b f st).tracker.postedFault[d] = false ∧ s.FlagTaken (s.abortBay b f st) d := by
  refine (State.abortBay_flag h d).imp_left fun hf => hf.trans ?_
  have hposters : d ∉ s.tracker.posters s.bays[b].queue := fun hm => by
    obtain ⟨e, he, hp, hd⟩ := Tracker.mem_posters.1 hm
    exact absurd (hp.symm.trans (hnone e he hd)) (by decide)
  rw [State.examineHolds_otherFlags hposters, State.aborting_postedFault, State.stopAll_flag (s := s.mapBay b f) (h.queues b) hst]
  refine (congrArg _ (List.any_eq_false.2 fun e he hc => ?_)).trans (Bool.or_false _)
  obtain ⟨hp, hd⟩ := Bool.and_eq_true_iff.1 hc
  exact absurd (Eq.trans (Eq.symm hp) (hnone e he (eq_of_beq hd))) (by decide)

/-- The translation of an entry of the queue leads to the bay. -/
theorem State.Filed.queue_xlat (h : s.Filed X) (he : e ∈ s.bays[b].queue) : ∃ x, s.tracker.entries[e].xlat = some x ∧ x.bay = b := by
  obtain ⟨-, -, -, hx⟩ := ((h.entry e).queue b).1 he
  exact hx

theorem State.abortBay_firstOffer (h : s.Filed X) (hst : st ≠ .ok) (hc : s.capture = none) {rest : List EntryId}
    (he : (s.bays[b].queue.filter fun e => s.tracker.entries[e].posted) = e :: rest) :
    ∃ more, (s.abortBay b f st).capture = some { offer := s.tracker.entries[e].failureOffer st, more := more } := by
  have k := State.Captured.workKept (s.tracker.entries[e].failureOffer st)
  have hstopped := State.stopAll_capture (s := s.mapBay b f) (h.queues b) hst hc he
  exact k.readyThese _ _ (k.letGo _ _ _ (k.markStale b _ hstopped))

theorem State.abortBay_latched (h : s.Filed X) (hst : st ≠ .ok) (hpolicy : (f s.bays[b]).policy = s.bays[b].policy) (he : e ∈ s.bays[b].queue) (hp : s.tracker.entries[e].posted = true)
    (hs : s.bays[b].policy.sense.getLsbD CondKind.postedFault.index = true) : (s.abortBay b f st).events.isPending (.bay (baySource b CondKind.postedFault.index)) = true := by
  obtain ⟨x, hx, rfl⟩ := h.queue_xlat he
  have k := State.Latched.workKept (.bay (baySource x.bay CondKind.postedFault.index))
  have hstopped := State.stopAll_latched (s := s.mapBay x.bay f) (st := st) (h.queues x.bay) hst he hp hx (by rw [State.mapBay_same, hpolicy]; exact hs)
  exact k.readyThese _ _ (k.letGo _ _ _ (k.markStale x.bay _ hstopped))

/-- Where no entry of the queue is posted, no hold list is examined. -/
theorem State.abortBay_quiet (h : s.Filed X) (hp : ∀ e ∈ s.bays[b].queue, s.tracker.entries[e].posted = false) :
    (s.abortBay b f st).capture = s.capture ∧ (s.abortBay b f st).events = s.events ∧ (s.abortBay b f st).bays = (s.mapBay b f).bays := by
  have hposters : s.tracker.posters s.bays[b].queue = [] := by
    rw [Tracker.posters, List.map_eq_nil_iff, List.filter_eq_nil_iff]
    exact fun e he => Bool.eq_false_iff.1 (hp e he)
  obtain ⟨hcapture, hevents⟩ := State.stopAll_quiet (s := s.mapBay b f) (st := st) (h.queues b) hp
  refine ⟨?_, ?_, ?_⟩
  · rw [State.abortBay_eq, hposters, State.letGo, State.examineHolds_nil, State.readyThese_capture, State.examineSyncs_capture, State.aborting_capture, hcapture]
    rfl
  · rw [State.abortBay_eq, hposters, State.letGo, State.examineHolds_nil, State.readyThese_events, State.examineSyncs_events, State.aborting_events, hevents]
    rfl
  · rw [State.abortBay_bays, hposters, State.examineHolds_nil, State.aborting_bays]

/-- An entry that was HELD for the bay is stale, and fails where it is let go. -/
theorem State.abortBay_stale (h : s.Filed X) (he : e ∈ s.tracker.taken) {x : Translation} (hs : s.tracker.entries[e].state = .held) (hx : s.tracker.entries[e].xlat = some x) (hb : x.bay = b) :
    (s.abortBay b f st).tracker.entries[e].state = .held ∧ (s.abortBay b f st).tracker.entries[e].stale = true
      ∨ ((s.abortBay b f st).tracker.entries[e].state = .done ∧ (s.abortBay b f st).tracker.entries[e].status = .bayNotReady) ∨ (s.abortBay b f st).tracker.entries[e].state = .free := by
  have hq : e ∉ s.bays[b].queue := (h.entry e).not_queued (by rw [hs]; rfl) b
  have hmarked := State.aborting_marked (f := f) (st := st) h.taken hq
  have hheld := hmarked.state.trans hs
  have hstale := hmarked.stale he hs x hx hb
  have hresponse : (s.aborting b f st).tracker.entries[e].posted = false → (s.aborting b f st).tracker.entries[e].response = none := by
    rw [hmarked.posted, hmarked.response]
    exact (h.entry e).response_none he (by rw [hs]; decide)
  have houtcome := State.letGo_held (State.aborting_nodup h.taken) (hs := s.tracker.posters s.bays[b].queue) (ss := s.bays[b].queue.map fun e => s.tracker.entries[e].domain)
    (hmarked.listed.2 he) hheld hresponse (hmarked.xlat.trans hx) (es := s.tracker.abortOrder s.bays[b].queue) fun hm => Tracker.mem_abortOrder_of_taken _ he
  rw [← State.abortBay_eq] at houtcome
  rcases houtcome with hkept | ⟨-, hfresh, -⟩ | ⟨-, -, hstate, -⟩
  · exact .inl (by rw [hkept]; exact ⟨hheld, hstale⟩)
  · exact absurd (hstale.symm.trans hfresh) (by decide)
  · exact .inr hstate

/-- An abort that gives a status of failure, and leaves a bay that takes no requests, is one in the sense of the specification. -/
theorem State.abortBay_aborted (h : s.Filed X) (ha : s.tracker.Answering) (hd : ∀ e ∈ s.tracker.taken, s.tracker.entries[e].state = .done → s.tracker.entries[e].response.isSome = true)
    (hf : (f s.bays[b]).takesRequests = false) (hq : (f s.bays[b]).queue = []) (hpolicy : (f s.bays[b]).policy = s.bays[b].policy) (hst : st ≠ .ok) :
    s.Aborted b st (f s.bays[b]) (s.abortBay b f st) := by
  have hbeside : s.Beside (s.abortBay b f st) := by
    have k := (State.Beside.movesKept s).workKept
    exact k.abortBay b f st s (.of_blocks rfl rfl rfl rfl)
  refine
    { bay := State.abortBay_bay hf hq
      others := fun x hx hsound => ?_
      ended := fun e he => State.abortBay_ended h he
      order := ?_
      faultFlag := fun e => State.abortBay_faultFlag h hst
      otherFlags := fun d => State.abortBay_otherFlags h hst
      firstOffer := fun hc e rest he => ?_
      latched := fun ⟨e, he, hp⟩ => State.abortBay_latched h hst hpolicy he hp
      quiet := fun hp => ?_
      stale := fun e he x => State.abortBay_stale h he
      kept := fun e he hq hs hw => (State.Spares.abortBay f st hq hs hw (Entry.unanswered_eq_false _ fun hs' _ => hd e he hs')).entry
      uplink := hbeside.uplink
      tables := hbeside.tables
      events := hbeside.events
      pending := hbeside.pending }
  · obtain ⟨released, hbay, hreleased⟩ := State.abortBay_others (f := f) (st := st) h hx
    exact ⟨released, hbay ▸ Bay.arrivals_receives hsound released, hreleased⟩
  · obtain ⟨ready, horder, hready⟩ := State.abortBay_order (b := b) (f := f) (st := st) h ha
    exact ⟨_, horder, Tracker.abortOrder_placed h.taken (h.queues b) hready⟩
  · obtain ⟨more, hmore⟩ := State.abortBay_firstOffer (f := f) h hst hc he
    obtain ⟨x, hx, hb⟩ := h.queue_xlat (List.mem_filter.1 (he ▸ List.mem_cons_self : e ∈ s.bays[b].queue.filter fun e => s.tracker.entries[e].posted)).1
    refine ⟨more, hmore.trans ?_⟩
    rw [Entry.failureOffer, hx, ← hb]
    rfl
  · obtain ⟨hcapture, hevents, hbays⟩ := State.abortBay_quiet (f := f) (st := st) h hp
    exact ⟨hcapture, hevents, fun x hx => by rw [hbays, State.mapBay_other hx]⟩

end

/-- The bay when its bus and lanes have been cleared and it has gone to `st`, with the cause `c`. -/
def Bay.cleared (y : Bay) (st : BayState) (c : FaultCause) : Bay :=
  { y with state := st, mainRail := false, auxRail := false, moduleReset := true, railGood := y.railGood && !y.mainRail, timer := none
           identity := none, pollTimer := none, owed := 0, timeouts := 0, forced := false, depth := none, cause := c, drainRequested := false
           lanes := Vector.replicate 4 Lane.shut, exchange := none, unit := none, queue := [], due := false, idLine := y.lineLeft }

/-- A bay that enters EMPTY, HELD or FAULTED leaves an identity read with its closing mark. -/
theorem Bay.lineLeft_eq (y : Bay) : y.lineLeft = if y.state == .identifying then y.idLine ++ [.closingMark] else y.idLine := by
  simp [Bay.lineLeft]

theorem Bay.remove_eq (y : Bay) : y.remove = y.cleared .empty .none := by
  simp [Bay.remove, Bay.cleared, Bay.clearBus, Bay.enter, Bay.lineLeft_eq, closedLanes, BayState.powered, BayState.inReset, BayState.inService, BayState.arbitrates, BayState.hasDepth]

theorem Bay.fault_eq (c : FaultCause) (y : Bay) : y.fault c = y.cleared .faulted c := by
  simp [Bay.fault, Bay.cleared, Bay.clearBus, Bay.enter, Bay.lineLeft_eq, closedLanes, BayState.powered, BayState.inReset, BayState.inService, BayState.arbitrates, BayState.hasDepth]

theorem Bay.restart_eq (y : Bay) : y.restart = { y.cleared .held .none with mainRail := true, auxRail := y.auxWanted, railGood := y.railGood, timer := some 10000 } := by
  simp [Bay.restart, Bay.cleared, Bay.clearBus, Bay.enterHeld, Bay.enter, Bay.lineLeft_eq, closedLanes, BayState.powered, BayState.inReset, BayState.inService, BayState.arbitrates, BayState.hasDepth,
    Config.holdTime]

theorem State.WorkSound.aborted {s : State} (h : s.WorkSound) {b : BayId} {f : Bay → Bay} {st : Status} (hf : (f s.bays[b]).takesRequests = false)
    (hq : (f s.bays[b]).queue = []) (hpolicy : (f s.bays[b]).policy = s.bays[b].policy) (hst : st ≠ .ok) : s.Aborted b st (f s.bays[b]) (s.abortBay b f st) :=
  State.abortBay_aborted h.filed h.answering (fun _ => h.response_of_done) hf hq hpolicy hst

/-- Settles O40, from the general theorem on an abort, for each of the three ways in which the bay is cleared. -/
theorem bayAbortEndsItsQueue : Obligations.BayAbortEndsItsQueue := by
  intro s b h
  dsimp only
  have hremoved := h.aborted (b := b) (f := Bay.remove) (st := .moduleGone) rfl rfl rfl (by decide)
  have hfaulted (c : FaultCause) := h.aborted (b := b) (f := Bay.fault c) (st := .bayFaulted) rfl rfl rfl (by decide)
  have hreset := h.aborted (b := b) (f := Bay.restart) (st := .bayReset) rfl rfl rfl (by decide)
  rw [Bay.remove_eq] at hremoved
  rw [Bay.restart_eq] at hreset
  refine ⟨⟨_, hremoved, rfl⟩, fun c hc => ⟨_, ?_, rfl⟩, hreset⟩
  have hdown := hfaulted c
  rw [Bay.fault_eq] at hdown
  exact hdown

end Sys2Proof.Machine

/-! RESET (R118): by bay state it is refused, or is the bay reset of the bay followed by the OK answer. -/

namespace Sys2Proof.Machine

theorem BayState.resettable_iff (st : BayState) :
    st.resettable = true ↔ st = .held ∨ st = .starting ∨ st = .identifying ∨ st = .online ∨ st = .parking ∨ st = .parked ∨ st = .waking := by
  cases st <;> decide

section
variable {s : State} {t : Taken} (h : s.WorkSound) (hf : s.tracker.entries[t.entry].state = .free)
include h hf

/-- When a request has been taken, the tracker's lists and the bay queues agree but for its entry. -/
theorem State.WorkSound.takeRequest : (s.takeRequest t).Work { strict := False, examined := False, sound := False } (.taking (· = t.entry) fun _ => False) :=
  (h.work False.elim False.elim False.elim).takeRequest hf

theorem State.WorkSound.takeRequest_aborted : (s.takeRequest t).Aborted t.request.actionBay .bayReset s.bays[t.request.actionBay].restart ((s.takeRequest t).resetBay t.request.actionBay) := by
  have hwork := h.takeRequest hf
  exact State.abortBay_aborted hwork.filed (hwork.answering not_false) (hwork.answered not_false) rfl rfl rfl (by decide)

theorem State.WorkSound.takeRequest_spares (b : BayId) : (s.takeRequest t).Spares ((s.takeRequest t).resetBay b) t.entry :=
  (s.takeRequest_inHand t).resetBay_spares (h.takeRequest hf).filed b

end

/-- Settles O39: what is accepted is an abort of the bay's queue, in a part in which the request has been taken, and then the end of the request. -/
theorem resetActsByState : Obligations.ResetActsByState := by
  intro s t ht
  dsimp only
  have hserved : exec .reset s = .next (s.serveAction 5 actReset) := rfl
  rw [hserved, State.serveAction_of_takesAction actReset ht, actReset, State.takeRequest_bays, ← BayState.resettable_iff]
  have hkind : t.request.kind = .bayAction := by
    obtain ⟨-, hkind, -⟩ := ht
    exact hkind
  have hfree : s.tracker.entries[t.entry].state = .free := by
    obtain ⟨hnext, -⟩ := ht
    obtain ⟨hentry, -⟩ := (s.nextTaken_eq_some_iff t).1 hnext
    exact ((s.tracker.lowestFree_eq_some_iff t.entry).1 hentry).1
  refine ⟨fun hc => ⟨_, rfl, ?_⟩, fun hc hs => ⟨(s.takeRequest t).resetBay t.request.actionBay, _, ?_, rfl, ?_, State.finishWith_bays .., ?_, ?_, ?_, State.finishWith_events ..,
    State.finishWith_capture ..⟩⟩
  · rw [if_neg hc]
    have hanswered := State.actionAnswered_finishWith (s := s) hkind .badState s.bays[t.request.actionBay]
    rwa [← State.takeRequest_bays t s, State.mapBay_const_self] at hanswered
  · rw [if_pos hc]
    rfl
  · exact Bay.restart_eq s.bays[t.request.actionBay] ▸ hs.takeRequest_aborted hfree
  · rw [State.finishWith_uplink, (hs.takeRequest_aborted hfree).uplink]
    rfl
  · rw [State.finishWith, State.finish_entry]
  · rw [State.finishWith, State.finish_entry, (hs.takeRequest_spares hfree _).entry, State.takeRequest_entry, id]
    simp only [Entry.assemble, Entry.ofRequest, hkind]
    rfl

end Sys2Proof.Machine

/-! The timeout of an exchange (R53, R68, R70, R77): its own end, and the order in which what it and a fault let go joins the other bays' queues. -/

namespace Sys2Proof.Machine

/-! ### What joins the queues of the other bays -/

theorem Tracker.Touched.sublist {t u : Tracker} {e : EntryId} (h : t.Touched u e) : u.taken.Sublist t.taken := by
  rcases h.taken with ht | ht
  · exact ht ▸ .refl _
  · exact ht ▸ List.filter_sublist

/-- Between `s` and `v` no entry has been taken, and none has left the queue of a bay other than `b`. -/
structure State.GrowsBeside (s v : State) (b : BayId) : Prop where
  taken : v.tracker.taken.Sublist s.tracker.taken
  queue : ∀ c : BayId, c ≠ b → s.bays[c].queue <+: v.bays[c].queue

namespace State.GrowsBeside

variable {s u v : State} {b : BayId}

theorem refl (s : State) (b : BayId) : s.GrowsBeside s b := ⟨.refl _, fun _ _ => List.prefix_rfl⟩

theorem trans (h : s.GrowsBeside u b) (h' : u.GrowsBeside v b) : s.GrowsBeside v b := ⟨h'.taken.trans h.taken, fun c hc => (h.queue c hc).trans (h'.queue c hc)⟩

theorem of_queues (ht : v.tracker.taken.Sublist s.tracker.taken) (hb : ∀ c : BayId, c ≠ b → v.bays[c] = s.bays[c]) : s.GrowsBeside v b :=
  ⟨ht, fun c hc => hb c hc ▸ List.prefix_rfl⟩

theorem of_same (ht : v.tracker.taken = s.tracker.taken) (hb : v.bays = s.bays) : s.GrowsBeside v b := of_queues (ht ▸ .refl _) fun c _ => by rw [hb]

theorem mapBay (s : State) (b : BayId) (f : Bay → Bay) : s.GrowsBeside (s.mapBay b f) b := of_queues (.refl _) fun _ hc => State.mapBay_other hc f s

theorem of_touched {e : EntryId} (ht : s.tracker.Touched v.tracker e) (hb : v.bays = s.bays) : s.GrowsBeside v b := of_queues ht.sublist fun c _ => by rw [hb]

theorem foldl {step : State → EntryId → State} (hstep : ∀ (v : State) (e : EntryId), v.GrowsBeside (step v e) b) (es : List EntryId) (s : State) : s.GrowsBeside (es.foldl step s) b :=
  foldl_kept (P := fun v => s.GrowsBeside v b) (fun v e hv => hv.trans (hstep v e)) es s (.refl s b)

theorem letGo (hs ss : List DomainId) (s : State) : s.GrowsBeside (s.letGo hs ss) b := by
  have hholds : s.GrowsBeside (s.examineHolds hs) b := foldl (fun v e => ⟨(v.holdStep_touched hs e).sublist, fun c _ => ((State.BaysGrow.refl v).holdStep hs e).queue c⟩) _ s
  exact hholds.trans (of_same (State.examineSyncs_tracker_taken ..) (State.examineSyncs_bays ..))

theorem readyThese (es : List EntryId) (s : State) : s.GrowsBeside (s.readyThese es) b := of_same (State.readyThese_tracker_taken ..) (State.readyThese_bays ..)

theorem stopEntry (e : EntryId) (st : Status) (s : State) : s.GrowsBeside (s.stopEntry e st) b := of_touched (s.stopEntry_touched e st) (s.stopEntry_bays e st)

theorem endEntry (s : State) (b : BayId) (e : EntryId) (st : Status) : s.GrowsBeside (s.endEntry b e st) b :=
  (((mapBay s b _).trans (stopEntry e st _)).trans (readyThese [e] _)).trans ((letGo _ _ _).trans (readyThese _ _))

theorem abortBay (s : State) (b : BayId) (f : Bay → Bay) (st : Status) : s.GrowsBeside (s.abortBay b f st) b := by
  have hmarked : s.GrowsBeside (s.aborting b f st) b := (mapBay s b f).trans ((foldl (fun v e => stopEntry e st v) s.bays[b].queue _).trans
    (foldl (fun v e => of_touched (State.markStale_touched b v e) (by split <;> rfl)) _ _))
  exact hmarked.trans ((letGo _ _ _).trans (readyThese _ _))

theorem faultBay (s : State) (b : BayId) (c : FaultCause) : s.GrowsBeside (s.faultBay b c) b := by
  refine (abortBay s b (Bay.fault c) .bayFaulted).trans (of_same ?_ ?_)
  · rw [State.faultBay, State.raise_tracker, State.offer_tracker]
  · rw [State.faultBay, State.raise_bays, State.offer_bays]

end State.GrowsBeside

/-- A faulted bay holds no entry. -/
theorem State.faultBay_queue (s : State) (b : BayId) (c : FaultCause) : (s.faultBay b c).bays[b].queue = [] := by
  rw [State.faultBay, State.raise_bays, State.offer_bays, State.abortBay_bay (f := Bay.fault c) rfl rfl]
  rfl

/-- Put into the order taken, what has joined a queue stands behind what it held. -/
theorem State.joinAsTaken_queue {s v : State} {b c : BayId} {X : EntryId → Prop} (h : v.Filed X) (hg : s.GrowsBeside v b) (hc : c ≠ b) :
    ∃ joined, (s.joinAsTaken v).bays[c].queue = s.bays[c].queue ++ joined ∧ joined.Sublist s.tracker.taken ∧ ∀ e, e ∈ (s.joinAsTaken v).bays[c].queue ↔ e ∈ v.bays[c].queue := by
  obtain ⟨later, hlater⟩ := hg.queue c hc
  have hnew : ∀ e ∈ later, e ∉ s.bays[c].queue := fun e he hq => (List.nodup_append.1 (hlater ▸ h.queues c)).2.2 e hq e he rfl
  rw [State.joinAsTaken_bay]
  refine ⟨v.tracker.taken.filter fun e => later.contains e, ?_, List.filter_sublist.trans hg.taken, Tracker.mem_joinOrder fun e he => h.mem_taken he⟩
  rw [← hlater]
  exact Tracker.joinOrder_append v.tracker hnew

theorem State.busRest_other {b c : BayId} (hc : c ≠ b) (s : State) : (s.busRest b).bays[c] = s.bays[c] := State.mapBay_other hc ..

/-- An empty queue is in the order taken. -/
theorem State.joinAsTaken_empty (s : State) {v : State} {b : BayId} (hq : v.bays[b].queue = []) : (s.joinAsTaken v).bays[b] = v.bays[b] := by
  rw [State.joinAsTaken_bay, hq, Tracker.joinOrder_nil, ← hq]

theorem State.busRest_joinAsTaken_self (s : State) {v : State} {b : BayId} (hq : v.bays[b].queue = []) : ((s.joinAsTaken v).busRest b).bays[b] = (v.busRest b).bays[b] := by
  rw [State.busRest, State.mapBay_same, State.busRest, State.mapBay_same, s.joinAsTaken_empty hq]

/-- But for the order of its queue, each bay is as it is without the reordering. -/
theorem State.busRest_joinAsTaken_bay (s : State) {v : State} (b : BayId) (hq : v.bays[b].queue = []) (c : BayId) :
    { ((s.joinAsTaken v).busRest b).bays[c] with queue := (v.busRest b).bays[c].queue } = (v.busRest b).bays[c] := by
  by_cases hc : c = b
  · subst hc
    rw [s.busRest_joinAsTaken_self hq]
  · rw [State.busRest_other hc, State.busRest_other hc, State.joinAsTaken_bay]

/-! ### The timeout -/

section
variable {s v : State} {b : BayId} {x : Exchange} (hx : s.bays[b].exchange = some x) (hv : (s.mapBay b (Bay.endExchange (s.bays[b].timeouts + 1))).timedOut b x.op = v)
include hx hv

theorem exec_exchangeTimeout_of_lt (hn : s.bays[b].timeouts + 1 < 3) : exec (.exchangeTimeout b) s = .next (v.busRest b) := by
  subst hv
  simp only [exec, execExchangeTimeout, hx]
  rw [if_neg (by exact Nat.not_le.2 hn)]

theorem exec_exchangeTimeout_of_le (hn : 3 ≤ s.bays[b].timeouts + 1) :
    exec (.exchangeTimeout b) s = .next ((s.joinAsTaken (v.faultBay b .exchangeTimeouts)).busRest b) := by
  subst hv
  simp only [exec, execExchangeTimeout, hx]
  rw [if_pos (by exact hn)]

omit hx in
/-- Where the timeout faults the bay, the tracker's lists and the bay queues agree. -/
theorem State.WorkSound.timedOut_fault (h : s.WorkSound) : (v.faultBay b .exchangeTimeouts).Filed fun _ => False := by
  subst hv
  have hwork := h.work (k := { strict := False, examined := False, sound := False }) False.elim False.elim False.elim
  exact (((hwork.endExchange (b := b) (n := s.bays[b].timeouts + 1) .late False.elim).timedOut (.inr rfl) x.op).faultBay (c := .exchangeTimeouts) (by decide) False.elim).filed

end

/-! ### The end that each exchange takes -/

section
variable {s : State} {b : BayId} {n : Nat}

/-- The exchanges that are no POLL are those of a unit, where one is under way. -/
theorem State.timedOut_of_some_unit {s : State} {b : BayId} {op : ExchangeOp} {u : UnitRun} (hop : op ≠ .poll) (hu : s.bays[b].unit = some u) :
    s.timedOut b op = s.unitEnd b u.entry (s.bays[b].unitTimeout u) := by
  cases op with
  | poll => exact absurd rfl hop
  | _ => simp only [State.timedOut, hu]

theorem State.timedOut_of_no_unit {s : State} {b : BayId} {op : ExchangeOp} (hop : op ≠ .poll) (hu : s.bays[b].unit = none) : s.timedOut b op = s.arbiterEnd b op := by
  cases op with
  | poll => exact absurd rfl hop
  | _ => simp only [State.timedOut, hu]

theorem State.timedOut_of_poll : (s.mapBay b (Bay.endExchange n)).timedOut b .poll =
    (s.mapBay b fun _ => { s.bays[b] with exchange := none, timeouts := n, owed := s.bays[b].owed - 1 }).offer { kind := .pollFailed, who := none, bay := some b, xlat := none } := by
  rw [State.timedOut, State.pollFailure, State.mapBay_mapBay, State.mapBay_const]
  rfl

theorem State.timedOut_of_release {l : LaneId} (hu : s.bays[b].unit = none) : (s.mapBay b (Bay.endExchange n)).timedOut b (.release l) =
    s.mapBay b fun _ => { s.bays[b] with exchange := none, timeouts := n, lanes := s.bays[b].recovering l } := by
  have hunit : (s.mapBay b (Bay.endExchange n)).bays[b].unit = none := by rw [State.mapBay_same]; exact hu
  rw [State.timedOut_of_no_unit (op := .release l) nofun hunit, State.arbiterEnd, State.mapBay_mapBay, State.mapBay_const, Bay.startRecovery_eq]
  rfl

/-- A unit that is over leaves a lane that is not OPEN as its recovery has left it. -/
theorem Bay.unitOver_recovering {u : UnitRun} {p : LanePlace} (hp : u.place = some p) (y : Bay) :
    ({ y with lanes := y.recovering p.lane } : Bay).unitOver u = { y with exchange := none, unit := none, lanes := y.recovering p.lane } := by
  have hlane : (y.recovering p.lane)[p.lane].state ≠ .opened ∧ (y.recovering p.lane)[p.lane].pinned = false := by
    unfold Bay.recovering
    rw [Fin.getElem_fin, Vector.getElem_set_self]
    split
    · exact ⟨by decide, rfl⟩
    · exact ⟨nofun, rfl⟩
  obtain ⟨hstate, hpinned⟩ := hlane
  have hsame : { (y.recovering p.lane)[p.lane] with pinned := false } = (y.recovering p.lane)[p.lane] := by rw [← hpinned]
  unfold Bay.unitOver
  simp only [hp, hstate, and_false, if_false]
  rw [hsame]
  exact congrArg (fun lanes => { y with exchange := none, unit := none, lanes := lanes }) (Vector.set_getElem_self p.lane.isLt)

theorem Bay.unitOver_of_no_place {u : UnitRun} (hp : u.place = none) (y : Bay) : y.unitOver u = { y with exchange := none, unit := none } := by
  simp only [Bay.unitOver, hp]

/-- The unit's exchange has timed out: its lane recovers, and the entry fails. -/
theorem Bay.unitTimeout_eq (u : UnitRun) (y : Bay) : y.unitTimeout u =
    ({ y with exchange := none, unit := none
              lanes := match u.place with
                | some p => y.recovering p.lane
                | none => y.lanes }, .failed .timeout) := by
  unfold Bay.unitTimeout
  cases hp : u.place with
  | some p =>
    dsimp only
    rw [Bay.endUnit_eq, Bay.startRecovery_eq, Bay.unitOver_recovering hp]
  | none =>
    dsimp only
    rw [Bay.endUnit_eq, Bay.unitOver_of_no_place hp]

theorem State.timedOut_of_unit {op : ExchangeOp} {u : UnitRun} (hop : op ≠ .poll) (hu : s.bays[b].unit = some u) : (s.mapBay b (Bay.endExchange n)).timedOut b op =
    (s.mapBay b fun _ => { s.bays[b] with exchange := none, timeouts := n, unit := none
                                          lanes := match u.place with
                                            | some p => s.bays[b].recovering p.lane
                                            | none => s.bays[b].lanes }).endEntry b u.entry .timeout := by
  have hunit : (s.mapBay b (Bay.endExchange n)).bays[b].unit = some u := by rw [State.mapBay_same]; exact hu
  rw [State.timedOut_of_some_unit hop hunit, Bay.unitTimeout_eq, State.unitEnd, State.unitResult, State.mapBay_mapBay, State.mapBay_same]
  rfl

end

/-- Settles O49, from the end that each exchange takes, and from what the faulted part leaves of the queues of the other bays. -/
theorem exchangeTimeoutEndsExchange : Obligations.ExchangeTimeoutEndsExchange := by
  intro s b y ends
  have hnone (hx : s.bays[b].exchange = none) : exec (.exchangeTimeout b) s = .next s := by simp only [exec, execExchangeTimeout, hx]
  have hends {x : Exchange} (hx : s.bays[b].exchange = some x) {v : State} (hv : (s.mapBay b (Bay.endExchange (s.bays[b].timeouts + 1))).timedOut b x.op = v)
      (hg : s.GrowsBeside v b) : ends v := by
    refine ⟨exec_exchangeTimeout_of_lt hx hv, fun hn => ⟨_, exec_exchangeTimeout_of_le hx hv hn, rfl, State.busRest_joinAsTaken_bay s b (v.faultBay_queue b _),
      State.busRest_joinAsTaken_self s (v.faultBay_queue b _), fun hs c hc => ?_⟩⟩
    rw [State.busRest_other hc, State.busRest_other hc]
    exact State.joinAsTaken_queue (State.WorkSound.timedOut_fault hv hs) (hg.trans (.faultBay v b _)) hc
  refine ⟨hnone, fun x hx => ⟨fun hop => hends hx ?_ ?_, fun l hop hu => hends hx ?_ ?_, fun u hop hu => hends hx (State.timedOut_of_unit hop hu) ?_⟩⟩
  · rw [hop]
    exact State.timedOut_of_poll
  · exact (State.GrowsBeside.mapBay s b _).trans (.of_same (congrArg Tracker.taken (State.offer_tracker _ _)) (State.offer_bays _ _))
  · rw [hop]
    exact State.timedOut_of_release hu
  · exact .mapBay s b _
  · exact (State.GrowsBeside.mapBay s b _).trans (.endEntry _ b u.entry .timeout)

end Sys2Proof.Machine

/-! The tracker's part of a link reset (R64, Table 3-4): what it makes of each entry, and that the examinations after it let every HELD entry go. -/

namespace Sys2Proof.Machine

/-! ### Every entry by Table 3-4 -/

/-- The part when every entry has been taken through Table 3-4 and the response order is empty. -/
def State.relinked (s : State) : State :=
  let v := s.tracker.taken.foldl (fun s e => s.linkResetEntry e) s
  { v with tracker := { v.tracker with order := [] } }

theorem State.trackerLinkReset_eq_examine (s : State) : s.trackerLinkReset = s.relinked.examine allDomains allDomains := rfl

/-- Only the queue of a bay changes, which may lose entries. -/
def State.Thins (s v : State) : Prop := ∀ b : BayId, ∃ q : List EntryId, v.bays[b] = { s.bays[b] with queue := q } ∧ q.Sublist s.bays[b].queue

theorem State.Thins.of_bays {s v w : State} (h : s.Thins v) (hb : w.bays = v.bays) : s.Thins w := fun b => by
  rw [hb]
  exact h b

theorem State.Thins.dequeue {s v : State} (h : s.Thins v) (c : BayId) (e : EntryId) : s.Thins (v.dequeue c e) := fun b => by
  obtain ⟨q, hq, hsub⟩ := h b
  rw [State.dequeue, State.mapBay_get]
  split
  · next hc =>
    subst hc
    exact ⟨q.filter (· != e), by rw [hq], List.filter_sublist.trans hsub⟩
  · exact ⟨q, hq, hsub⟩

theorem State.Thins.linkResetEntry {s v : State} (h : s.Thins v) (e : EntryId) : s.Thins (v.linkResetEntry e) := by
  refine State.linkResetEntry_cases (P := fun w => s.Thins w) (fun _ => h) (fun _ _ => h.of_bays rfl) (fun _ => h.of_bays rfl) (fun _ _ _ => ?_) fun _ _ _ _ _ => h.of_bays rfl
  unfold State.dropEntry
  split
  · next x _ => exact (h.dequeue x.bay e).of_bays rfl
  · exact h.of_bays rfl

theorem State.relinked_thins (s : State) : s.Thins s.relinked :=
  (foldl_kept (P := fun v : State => s.Thins v) (fun _ e hv => hv.linkResetEntry e) s.tracker.taken s fun _ => ⟨_, rfl, .refl _⟩).of_bays rfl

theorem State.linkResetEntry_flags (e : EntryId) (s : State) : (s.linkResetEntry e).tracker.nextSeq = s.tracker.nextSeq ∧ (s.linkResetEntry e).tracker.postedFault = s.tracker.postedFault :=
  State.linkResetEntry_cases (P := fun w => w.tracker.nextSeq = s.tracker.nextSeq ∧ w.tracker.postedFault = s.tracker.postedFault) (fun _ => ⟨rfl, rfl⟩) (fun _ _ => ⟨rfl, rfl⟩)
    (fun _ => ⟨rfl, rfl⟩) (fun _ _ _ => by rw [State.dropEntry_tracker]; exact ⟨rfl, rfl⟩) fun _ _ _ _ _ => ⟨rfl, rfl⟩

theorem State.relinked_flags (s : State) : s.relinked.tracker.nextSeq = s.tracker.nextSeq ∧ s.relinked.tracker.postedFault = s.tracker.postedFault := by
  refine foldl_kept (P := fun v : State => v.tracker.nextSeq = s.tracker.nextSeq ∧ v.tracker.postedFault = s.tracker.postedFault) (fun v e hv => ?_) s.tracker.taken s ⟨rfl, rfl⟩
  obtain ⟨hseq, hflag⟩ := v.linkResetEntry_flags e
  exact ⟨hseq.trans hv.1, hflag.trans hv.2⟩

theorem State.relinked_taken_subset {s : State} {e : EntryId} (he : e ∈ s.relinked.tracker.taken) : e ∈ s.tracker.taken :=
  State.foldl_taken_subset (step := fun v e => v.linkResetEntry e) State.linkResetEntry_touched s.tracker.taken s he

theorem State.relinked_nodup {s : State} (h : s.tracker.taken.Nodup) : s.relinked.tracker.taken.Nodup :=
  foldl_kept (P := fun v : State => v.tracker.taken.Nodup) (fun v e hv => (v.linkResetEntry_touched e).nodup hv) s.tracker.taken s h

/-- What Table 3-4 has made of the entry `e` of `s` in `v`. -/
inductive State.RelinkedEntry (s v : State) (e : EntryId) : Prop
  | freed (hl : e ∉ v.tracker.taken) (hp : s.tracker.entries[e].state.atBay = true → s.tracker.entries[e].posted = false
      ∧ (s.tracker.entries[e].state = .running → ∀ x, s.tracker.entries[e].xlat = some x → s.bays[x.bay].runs e = false))
  | posted (hl : e ∈ v.tracker.taken) (hp : s.tracker.entries[e].posted = true) (hs : s.tracker.entries[e].state = .held ∨ s.tracker.entries[e].state.atBay = true)
      (h : v.tracker.entries[e] = { s.tracker.entries[e] with response := none })
  | marked (hl : e ∈ v.tracker.taken) (hp : s.tracker.entries[e].posted = false) (hs : s.tracker.entries[e].state = .running) (x : Translation)
      (hx : s.tracker.entries[e].xlat = some x) (hr : s.bays[x.bay].runs e = true) (h : v.tracker.entries[e] = { s.tracker.entries[e] with discard := true })

theorem State.relinked_entry {s : State} (hn : s.tracker.taken.Nodup) {e : EntryId} (he : e ∈ s.tracker.taken) (hf : s.tracker.entries[e].state ≠ .free) : s.RelinkedEntry s.relinked e := by
  obtain ⟨v, after, hthins, hspared, hfold, hlater⟩ := State.foldl_entry (K := fun v => s.Thins v) (step := fun v e => v.linkResetEntry e) hn (fun _ => ⟨_, rfl, .refl _⟩)
    State.linkResetEntry_touched (fun _ hv x _ => hv.linkResetEntry x) he
  have hsame := hspared.entry
  have hlisted : e ∈ v.tracker.taken := hspared.listed.2 he
  have hruns (b : BayId) : v.bays[b].runs e = s.bays[b].runs e := by
    obtain ⟨q, hq, -⟩ := hthins b
    rw [hq]
    rfl
  have hend : e ∈ s.relinked.tracker.taken ↔ e ∈ (v.linkResetEntry e).tracker.taken := hlater.listed
  have hrec : s.relinked.tracker.entries[e] = (v.linkResetEntry e).tracker.entries[e] := hlater.entry
  have hgone (w : State) (hw : v.linkResetEntry e = w) (ht : w.tracker = (v.freeEntry e).tracker) : e ∉ s.relinked.tracker.taken := by
    rw [hend, hw, ht]
    exact v.freeEntry_not_taken e
  refine State.linkResetEntry_cases (P := fun w => v.linkResetEntry e = w → s.RelinkedEntry s.relinked e) (fun hs _ => absurd (hsame ▸ hs) hf) (fun hp hs hw => ?_) (fun hs hw => ?_)
    (fun hp hs hrun hw => ?_) (fun hp hs x hx hr hw => ?_) rfl
  · rw [hsame] at hp hs
    refine .posted (hend.2 (by rw [hw]; exact hlisted)) hp hs ?_
    rw [hrec, hw, State.dropResponse_same, hsame]
  · refine .freed (hgone _ hw rfl) fun ha => ?_
    rw [hsame] at hs
    rcases hs with hs | hs | ⟨hs, -⟩ <;> rw [hs] at ha <;> cases ha
  · rw [hsame] at hp hrun
    refine .freed (hgone _ hw (State.dropEntry_tracker e v)) fun _ => ⟨hp, fun hs x hx => ?_⟩
    rw [← hruns]
    exact hrun hs x hx
  · rw [hsame] at hp hs hx
    refine .marked (hend.2 (by rw [hw]; exact hlisted)) hp hs x hx (by rw [← hruns]; exact hr) ?_
    rw [hrec, hw, State.mapEntry_same, hsame]

/-! ### What is left (R64, R65) -/

/-- An entry that a link reset has left in use: it is posted and HELD or at its bay, or discarded and RUNNING, and has no response. -/
structure Entry.Left (x : Entry) : Prop where
  response : x.response = none
  place : x.posted = true ∧ (x.state = .held ∧ x.xlat.isSome = true ∨ x.state.atBay = true) ∨ x.posted = false ∧ x.state = .running ∧ x.discard = true

theorem Entry.Left.posted_of_held {x : Entry} (h : x.Left) (hs : x.state = .held) : x.posted = true := by
  rcases h.place with ⟨hp, -⟩ | ⟨-, hr, -⟩
  · exact hp
  · exact absurd (hs.symm.trans hr) (by decide)

/-- An entry that stays with its bay when the link reset is over. -/
structure Entry.Stays (x : Entry) : Prop where
  atBay : x.state.atBay = true
  response : x.response = none
  marked : x.posted = true ∨ x.discard = true

theorem Entry.Left.stays {x : Entry} (h : x.Left) (hs : x.state ≠ .held) : x.Stays := by
  refine ⟨?_, h.response, ?_⟩
  · rcases h.place with ⟨-, ⟨hheld, -⟩ | ha⟩ | ⟨-, hr, -⟩
    · exact absurd hheld hs
    · exact ha
    · rw [hr]; rfl
  · exact h.place.imp And.left fun ⟨_, _, hd⟩ => hd

section
variable {s : State} (h : s.tracker.Listed)
include h

theorem State.relinked_left {e : EntryId} (he : e ∈ s.relinked.tracker.taken) : s.relinked.tracker.entries[e].Left := by
  obtain ⟨hn, huse, hheld, -, hresp, -⟩ := h
  have he' := State.relinked_taken_subset he
  cases State.relinked_entry hn he' (huse e he') with
  | freed hl _ => exact absurd he hl
  | posted _ hp hs hrec =>
    rw [hrec]
    exact ⟨rfl, .inl ⟨hp, hs.imp_left fun hh => ⟨hh, hheld e he' hh⟩⟩⟩
  | marked _ hp hs x _ _ hrec =>
    rw [hrec]
    refine ⟨?_, .inr ⟨hp, hs, rfl⟩⟩
    show s.tracker.entries[e].response = none
    cases hr : s.tracker.entries[e].response with
    | none => rfl
    | some r =>
      rcases hresp e he' (by rw [hr]; rfl) with hp' | hd
      · exact absurd (hp'.symm.trans hp) (by decide)
      · exact absurd (hs.symm.trans hd) (by decide)

/-- What the examination of the hold lists leaves listed was left, and has been placed or not reached. -/
theorem State.relinked_examined {e : EntryId} (he : e ∈ (s.relinked.examineHolds allDomains).tracker.taken) :
    (s.relinked.examineHolds allDomains).tracker.entries[e].Left := by
  have he' := State.examineHolds_taken_subset he
  have hleft := State.relinked_left h he'
  cases State.examineHolds_outcome (State.relinked_nodup h.1) allDomains he' with
  | kept hk => rw [hk.entry]; exact hleft
  | placed x hr hx hs ht hrec hq =>
    rw [hrec]
    exact ⟨hleft.response, .inl ⟨hleft.posted_of_held hr.1, .inr rfl⟩⟩
  | failed x hr hx hs hfail =>
    rcases hfail with ⟨-, ⟨hsome, -⟩ | ⟨-, -, hl⟩⟩ | ⟨hp, -⟩
    · rw [hleft.response] at hsome; cases hsome
    · exact absurd he hl
    · exact absurd ((hleft.posted_of_held hr.1).symm.trans hp) (by decide)

end

/-- The oldest HELD entry has none before it. -/
theorem Tracker.exists_first_held {t : Tracker} (hn : t.taken.Nodup) {e : EntryId} (he : e ∈ t.taken) (hs : t.entries[e].state = .held) :
    ∃ f ∈ t.taken, t.entries[f].state = .held ∧ ∀ x ∈ t.before f, t.entries[x].state ≠ .held := by
  have hmem : e ∈ t.taken.filter fun x => t.entries[x].state == .held := List.mem_filter.2 ⟨he, by simpa using hs⟩
  cases hf : t.taken.filter fun x => t.entries[x].state == .held with
  | nil =>
    rw [hf] at hmem
    cases hmem
  | cons f rest =>
    obtain ⟨before, after, hsplit, hnone, hheld, -⟩ := List.filter_eq_cons_iff.1 hf
    refine ⟨f, by rw [hsplit]; exact List.mem_append_right _ List.mem_cons_self, eq_of_beq hheld, fun x hx hxs => ?_⟩
    rw [hsplit] at hn
    have hpass : ∀ y ∈ before, (y != f) = true := fun y hy => bne_iff_ne.2 fun hyf => (List.nodup_append.1 hn).2.2 y hy f List.mem_cons_self hyf
    rw [Tracker.before, hsplit, List.takeWhile_append_of_pos hpass, List.takeWhile_cons_of_neg (by simp), List.append_nil] at hx
    exact hnone x hx (by simpa using hxs)

/-- Where all hold lists are stopped, some entry that is not posted is HELD where any is. -/
theorem Tracker.HoldsStopped.not_held {t : Tracker} (hn : t.taken.Nodup) (hstop : ∀ d, t.HoldsStopped d)
    (hheld : ∀ e ∈ t.taken, t.entries[e].state = .held → t.entries[e].posted = true ∧ t.entries[e].xlat.isSome = true) {e : EntryId} (he : e ∈ t.taken) : t.entries[e].state ≠ .held := by
  intro hs
  obtain ⟨f, hf, hfs, hfirst⟩ := Tracker.exists_first_held hn he hs
  obtain ⟨hp, hx⟩ := hheld f hf hfs
  obtain ⟨x, hx⟩ := Option.isSome_iff_exists.1 hx
  have hnone : t.earlierHeld f x.bay = false := by
    refine List.any_eq_false.2 fun y hy hh => hfirst y hy ?_
    rw [Entry.heldFor, Bool.and_eq_true, Bool.and_eq_true] at hh
    obtain ⟨⟨hheld', -⟩, -⟩ := hh
    exact eq_of_beq hheld'
  obtain ⟨hp', -⟩ := hstop _ f hf hfs rfl x hx hnone
  exact absurd (hp.symm.trans hp') (by decide)

section
variable {s : State} (h : s.tracker.Listed)
include h

/-- No entry is HELD any more, and what is listed stays with its bay. -/
theorem State.relinked_stays {e : EntryId} (he : e ∈ (s.relinked.examineHolds allDomains).tracker.taken) :
    (s.relinked.examineHolds allDomains).tracker.entries[e].Stays := by
  have hn := State.relinked_nodup h.1
  have hstart : s.relinked.tracker.Obeys False True (fun _ => True) fun _ => True := ⟨False.elim, fun _ _ hd => absurd trivial hd, fun _ _ hd => absurd trivial hd⟩
  have hobeys := State.obeys_examineHolds (ds := allDomains) hn hstart (fun _ _ => trivial) fun _ _ => trivial
  have hstop (d : DomainId) : (s.relinked.examineHolds allDomains).tracker.HoldsStopped d := hobeys.holds trivial d fun hd => hd.2 (mem_allDomains d)
  refine (State.relinked_examined h he).stays (Tracker.HoldsStopped.not_held (State.examineHolds_nodup hn _) hstop (fun x hx hs => ?_) he)
  have hleft := State.relinked_examined h hx
  refine ⟨hleft.posted_of_held hs, ?_⟩
  rcases hleft.place with ⟨-, ⟨-, hxl⟩ | ha⟩ | ⟨-, hr, -⟩
  · exact hxl
  · rw [hs] at ha; cases ha
  · exact absurd (hs.symm.trans hr) (by decide)

end

theorem State.examineSyncs_of_none {s : State} (ds : List DomainId) (h : ∀ e ∈ s.tracker.taken, s.tracker.entries[e].state ≠ .waiting) : s.examineSyncs ds = s :=
  List.foldlRecOn (motive := fun v => v = s) s.tracker.taken _ rfl fun v hv e he => by
    subst hv
    refine if_neg fun hc => ?_
    obtain ⟨-, hw, -⟩ := (v.syncStep_due_iff ds e).1 hc
    exact h e he hw

theorem State.readyThese_of_none {s : State} {es : List EntryId} (h : ∀ e ∈ es, s.tracker.entries[e].unanswered = false) : s.readyThese es = s :=
  List.foldlRecOn (motive := fun v => v = s) es _ rfl fun v hv e he => by
    subst hv
    exact State.readyIfDone_settled v e (h e he)

/-- After Table 3-4 the hold lists alone have something to let go. -/
theorem State.trackerLinkReset_eq {s : State} (h : s.tracker.Listed) : s.trackerLinkReset = s.relinked.examineHolds allDomains := by
  have hstays {e : EntryId} (he : e ∈ (s.relinked.examineHolds allDomains).tracker.taken) {st : EntryState} (hst : st.atBay = false) :
      (s.relinked.examineHolds allDomains).tracker.entries[e].state ≠ st := fun hs => by
    have hat := (State.relinked_stays h he).atBay
    rw [hs, hst] at hat
    cases hat
  have hlet : s.relinked.letGo allDomains allDomains = s.relinked.examineHolds allDomains := State.examineSyncs_of_none _ fun e he => hstays he rfl
  rw [State.trackerLinkReset_eq_examine, State.examine, hlet]
  exact State.readyThese_of_none fun e he => Entry.unanswered_eq_false _ fun hd => absurd hd (hstays he rfl)

/-! ### The response order and the sequence -/

theorem State.holdStep_no_responses {s : State} (ds : List DomainId) (e : EntryId) (h : s.tracker.order = []) :
    (s.holdStep ds e).tracker.order = [] ∧ (s.holdStep ds e).tracker.nextSeq = s.tracker.nextSeq := by
  refine State.holdStep_cases (P := fun v => v.tracker.order = [] ∧ v.tracker.nextSeq = s.tracker.nextSeq) (fun _ => ⟨h, rfl⟩) (fun _ _ _ _ => ⟨h, rfl⟩)
    (fun _ _ _ _ => State.endPosted_failed (P := fun v => v.tracker.order = [] ∧ v.tracker.nextSeq = s.tracker.nextSeq) (by decide) (fun v hv => ?_) ?_) fun _ _ _ _ => ⟨h, rfl⟩
  · obtain ⟨horder, hseq⟩ := hv
    exact ⟨by rw [State.freeEntry_order, horder]; rfl, hseq⟩
  · rw [State.postedFailure_tracker]
    exact ⟨h, rfl⟩

theorem State.examineHolds_no_responses {s : State} (ds : List DomainId) (h : s.tracker.order = []) :
    (s.examineHolds ds).tracker.order = [] ∧ (s.examineHolds ds).tracker.nextSeq = s.tracker.nextSeq := by
  refine foldl_kept (P := fun v : State => v.tracker.order = [] ∧ v.tracker.nextSeq = s.tracker.nextSeq) (fun v e hv => ?_) _ s ⟨h, rfl⟩
  obtain ⟨horder, hseq⟩ := v.holdStep_no_responses ds e hv.1
  exact ⟨horder, hseq.trans hv.2⟩

end Sys2Proof.Machine

/-! The link reset as a whole (R40, R64, R65, R117, R155, R157, R158): the bays, the event unit, and the obligation on the two link events. -/

namespace Sys2Proof.Machine

/-! ### What a bay keeps -/

/-- The settings, the last status word, and what is on the bus are as they were. -/
structure Bay.Keeps (b v : Bay) : Prop where
  policy : v.policy = b.policy
  lastStatus : v.lastStatus = b.lastStatus
  exchange : v.exchange = b.exchange
  unit : v.unit = b.unit
  auxWanted : v.auxWanted = b.auxWanted

namespace Bay.Keeps

theorem refl (b : Bay) : b.Keeps b := ⟨rfl, rfl, rfl, rfl, rfl⟩

theorem trans {b v w : Bay} (h : b.Keeps v) (h' : v.Keeps w) : b.Keeps w where
  policy := h'.policy.trans h.policy
  lastStatus := h'.lastStatus.trans h.lastStatus
  exchange := h'.exchange.trans h.exchange
  unit := h'.unit.trans h.unit
  auxWanted := h'.auxWanted.trans h.auxWanted

theorem enter (b : Bay) (st : BayState) : b.Keeps (b.enter st) := ⟨rfl, rfl, rfl, rfl, rfl⟩

theorem drainSettle (b : Bay) : b.Keeps b.drainSettle := by
  unfold Bay.drainSettle
  split
  · split
    · exact enter b _
    · unfold Bay.drainRelease
      split
      · exact refl b
      · exact ⟨rfl, rfl, rfl, rfl, rfl⟩
  · exact refl b

theorem wakeEnds (b : Bay) : b.Keeps b.wakeEnds := by
  unfold Bay.wakeEnds
  dsimp only
  split
  · exact ⟨rfl, rfl, rfl, rfl, rfl⟩
  · exact ⟨rfl, rfl, rfl, rfl, rfl⟩

theorem wakeCheck (b : Bay) : b.Keeps b.wakeCheck := by
  unfold Bay.wakeCheck
  split
  · rw [Bay.startWake_eq]
    split
    · exact (enter b .waking).trans (wakeEnds _)
    · exact ⟨rfl, rfl, rfl, rfl, rfl⟩
  · exact refl b

theorem settle (b : Bay) : b.Keeps b.settle := by
  have hpark : b.Keeps b.parkSettle := by
    unfold Bay.parkSettle
    split
    · exact (enter b .parked).trans (wakeCheck _)
    · exact refl b
  exact hpark.trans (drainSettle _)

theorem enqueue (b : Bay) (e : EntryId) : b.Keeps (b.enqueue e) := by
  have hjoined (v : Bay) (hv : b.Keeps v) : b.Keeps v.wakeCheck := hv.trans (wakeCheck v)
  rw [Bay.enqueue_eq]
  split
  · exact hjoined _ ⟨rfl, rfl, rfl, rfl, rfl⟩
  · exact hjoined _ ⟨rfl, rfl, rfl, rfl, rfl⟩

theorem arrivals (b : Bay) (joined : List EntryId) : b.Keeps (b.arrivals joined) := foldl_kept (P := fun v => b.Keeps v) (fun v e hv => hv.trans (enqueue v e)) joined b (refl b)

end Bay.Keeps

/-! ### Every bay settles (R117) -/

theorem State.settleAll_bay (s : State) (c : BayId) : s.settleAll.bays[c] = s.bays[c].settle := by
  have hpassed := foldl_passes (f := fun (v : State) (b : BayId) => v.settle b) (P := fun passed v => ∀ c : BayId, v.bays[c] = if c ∈ passed then s.bays[c].settle else s.bays[c])
    allBays (s := s) (fun _ => rfl) fun passed b rest v hl hv c => ?_
  · exact (hpassed c).trans (if_pos (by revert c; decide))
  · have hnot : b ∉ passed := fun hm => by
      have hn : (passed ++ b :: rest).Nodup := hl ▸ (by decide : allBays.Nodup)
      exact (List.nodup_append.1 hn).2.2 b hm b List.mem_cons_self rfl
    rw [State.settle, State.mapBay_get]
    by_cases hc : c = b
    · subst hc
      rw [if_pos rfl, hv, if_neg hnot, if_pos (List.mem_append_right _ List.mem_cons_self)]
    · rw [if_neg hc, hv]
      simp only [List.mem_append, List.mem_singleton, hc, or_false]

theorem State.settleAll_tracker (s : State) : s.settleAll.tracker = s.tracker := by
  unfold State.settleAll
  exact foldl_kept (P := fun v : State => v.tracker = s.tracker) (fun v b hv => (State.mapBay_tracker b Bay.settle v).trans hv) _ s rfl

/-! ### A bay whose queue a link reset has thinned (R82, R117, R134) -/

/-- A sound bay stays sound when its queue is thinned, where the drain need not go on. -/
theorem Bay.Sound.thinned {b : Bay} (h : b.Sound) {q : List EntryId} (hq : q.Sublist b.queue) (hs : b.state ≠ .draining) : Bay.Sound { b with queue := q } := by
  obtain ⟨hout, hhold, ⟨howed, houtside, htimeouts, hx, hforced, hunit, hpoll, hdue, hparked⟩, ⟨hpark, -⟩, hlanes⟩ := h
  have hnil (hb : b.queue = []) : q = [] := List.sublist_nil.1 (hb ▸ hq)
  exact ⟨hout, hhold, ⟨howed, fun hs => (houtside hs).imp_right hnil, htimeouts, hx, hforced, hunit, hpoll, hdue, fun hs => (hparked hs).imp_left hnil⟩,
    ⟨hpark, fun hd => absurd hd hs⟩, hlanes⟩

theorem Bay.Sound.arrivals {b : Bay} (h : b.Sound) {joined : List EntryId} (ht : joined ≠ [] → b.takesRequests = true) : (b.arrivals joined).Sound := by
  by_cases hj : joined = []
  · rw [hj]
    exact h
  · have hall : (b.arrivals joined).takesRequests = true ∧ (b.arrivals joined).Stands .sound :=
      List.foldlRecOn (motive := fun v : Bay => v.takesRequests = true ∧ v.Stands .sound) joined _ ⟨ht hj, h⟩ fun v ⟨hv, hstands⟩ e _ => ⟨Bay.enqueue_takesRequests hv e, hstands.enqueue hv e⟩
    exact hall.2

theorem Bay.arrivals_settle {b : Bay} (h : b.Sound) {q joined : List EntryId} (hq : q.Sublist b.queue) (ht : joined ≠ [] → Bay.takesRequests { b with queue := q } = true) :
    (b.state ≠ .draining → Bay.Receives { b with queue := q } joined (Bay.arrivals { b with queue := q } joined).settle)
      ∧ (b.state = .draining → Bay.Drains { b with queue := q } (Bay.arrivals { b with queue := q } joined).settle) := by
  refine ⟨fun hs => ?_, fun hs => ?_⟩
  · have hsound := h.thinned hq hs
    rw [(hsound.arrivals ht).settle_eq]
    exact Bay.arrivals_receives (fun _ => hsound) joined
  · have hnone : joined = [] := by
      refine Decidable.byContradiction fun hj => ?_
      obtain ⟨hstates, -⟩ := (Bay.takesRequests_iff _).1 (ht hj)
      rw [show ({ b with queue := q } : Bay).state = .draining from hs] at hstates
      revert hstates
      decide
    rw [hnone]
    have hservice := h.inService (by rw [hs]; rfl) (by rw [hs]; rfl)
    have hdepth := h.depth_eq_none (by rw [hs]; rfl)
    have hthin : Bay.InService { b with queue := q } := ⟨hservice.outputs, hservice.state, hservice.timer, hservice.cause⟩
    have hdrains := hthin.drains hs hdepth
    rw [show Bay.arrivals { b with queue := q } [] = { b with queue := q } from rfl, Bay.settle_of_not_parking (by rw [show ({ b with queue := q } : Bay).state = .draining from hs]; decide)]
    exact hdrains

/-! ### The event unit (R155) -/

/-- The part when no domain is signalled and no notice waits. -/
def State.quietened (s : State) : State := { s with events := { s.events with delivery := tabulate 8 fun d => { s.events.delivery[d] with signal := false, notice := false } } }

theorem State.eventLinkReset_eq (s : State) : s.eventLinkReset = s.quietened.reexamineAll allDomains := rfl

theorem State.quietened_delivery (s : State) (d : DomainId) : s.quietened.events.delivery[d] = { s.events.delivery[d] with signal := false, notice := false } := tabulate_get 8 _ d

section
variable (s : State) (d : DomainId) (it : Item)

theorem State.eventLinkReset_isPending : s.eventLinkReset.events.isPending it = s.events.isPending it := by
  rw [State.eventLinkReset_eq, State.reexamineAll_isPending]
  rfl

theorem State.eventLinkReset_isActive : s.eventLinkReset.events.isActive it = s.events.isActive it := by
  rw [State.eventLinkReset_eq, State.reexamineAll_isActive]
  rfl

theorem State.eventLinkReset_lists :
    s.eventLinkReset.events.delivery[d].threshold = s.events.delivery[d].threshold ∧ s.eventLinkReset.events.delivery[d].inService = s.events.delivery[d].inService := by
  rw [State.eventLinkReset_eq, State.reexamineAll_threshold, State.reexamineAll_inService, State.quietened_delivery]
  exact ⟨rfl, rfl⟩

theorem State.eventLinkReset_tablesKept : s.events.TablesKept s.eventLinkReset.events := by
  rw [State.eventLinkReset_eq]
  exact ⟨State.reexamineAll_events_routes .., State.reexamineAll_events_descriptors .., State.reexamineAll_events_limit ..⟩

/-- A domain is signalled, with a notice waiting, where an item is deliverable. -/
theorem State.eventLinkReset_signal : s.eventLinkReset.events.delivery[d].notice = s.eventLinkReset.events.delivery[d].signal
    ∧ (s.eventLinkReset.events.delivery[d].signal = true ↔ ∃ it, s.eventLinkReset.deliverable d it = true) := by
  obtain ⟨hdue, hnone⟩ := State.reexaminedFrom_reexamineAll (mem_allDomains d) s.quietened
  rw [State.quietened_delivery] at hdue hnone
  rw [State.eventLinkReset_eq]
  by_cases hit : ∃ it, (s.quietened.reexamineAll allDomains).deliverable d it = true
  · rw [hdue ⟨rfl, hit⟩]
    exact ⟨rfl, iff_of_true rfl hit⟩
  · rw [hnone (.inr fun it => Bool.eq_false_iff.2 fun h => hit ⟨it, h⟩)]
    exact ⟨rfl, iff_of_false nofun hit⟩

end

end Sys2Proof.Machine

/-! The link events (R40, R64, R65, R117, R155, R157, R158): what a link reset leaves of the queues, and the obligation. -/

namespace Sys2Proof.Machine

/-- The part when the link has gone DOWN, before the tracker's part of the link reset. -/
def State.cutOff (s : State) : State := { s with uplink := s.uplink.lost, tables := { s.tables with lastServed := 7 } }

theorem State.linkReset_eq (s : State) : s.linkReset = s.cutOff.trackerLinkReset.settleAll.eventLinkReset := rfl

section
variable {s : State}

/-- A link reset reaches no other block but by offers and latches. -/
theorem State.linkReset_beside (s : State) : s.cutOff.Beside s.cutOff.trackerLinkReset.settleAll := by
  have k := State.Beside.movesKept s.cutOff
  exact k.settleAll (k.trackerLinkReset (.refl _))

theorem State.linkReset_tracker (h : s.tracker.Listed) : s.linkReset.tracker = (s.cutOff.relinked.examineHolds allDomains).tracker := by
  rw [State.linkReset_eq, State.eventLinkReset_eq, State.reexamineAll_tracker, ← State.trackerLinkReset_eq (s := s.cutOff) h]
  exact s.cutOff.trackerLinkReset.settleAll_tracker

theorem State.linkReset_bay (h : s.tracker.Listed) (b : BayId) : s.linkReset.bays[b] = (s.cutOff.relinked.examineHolds allDomains).bays[b].settle := by
  rw [State.linkReset_eq, State.eventLinkReset_eq, State.reexamineAll_bays, ← State.trackerLinkReset_eq (s := s.cutOff) h]
  exact s.cutOff.trackerLinkReset.settleAll_bay b

theorem State.linkReset_pending (s : State) : s.linkReset.pending = s.pending := by
  rw [State.linkReset_eq, State.eventLinkReset_eq, State.reexamineAll_pending]
  exact s.linkReset_beside.pending

theorem State.linkReset_flags (h : s.tracker.Listed) {d : DomainId} (hd : s.tracker.postedFault[d] = true) : s.linkReset.tracker.postedFault[d] = true := by
  rw [State.linkReset_tracker h]
  refine State.examineHolds_flags allDomains d _ ?_
  obtain ⟨-, hflags⟩ := s.cutOff.relinked_flags
  rw [hflags]
  exact hd

theorem State.linkReset_order (h : s.tracker.Listed) : s.linkReset.tracker.order = [] ∧ s.linkReset.tracker.nextSeq = s.tracker.nextSeq := by
  obtain ⟨horder, hseq⟩ := State.examineHolds_no_responses (s := s.cutOff.relinked) allDomains rfl
  obtain ⟨hstart, -⟩ := s.cutOff.relinked_flags
  rw [State.linkReset_tracker h]
  exact ⟨horder, hseq.trans hstart⟩

/-! ### The event unit -/

theorem State.linkReset_tablesKept (s : State) : s.events.TablesKept s.linkReset.events := EventUnit.TablesKept.trans s.linkReset_beside.events (State.eventLinkReset_tablesKept _)

theorem State.linkReset_marks (s : State) (it : Item) : s.linkReset.events.isActive it = s.events.isActive it ∧ (s.events.isPending it = true → s.linkReset.events.isPending it = true) := by
  rw [State.linkReset_eq, State.eventLinkReset_isActive, State.eventLinkReset_isPending]
  exact ⟨s.linkReset_beside.active it, s.linkReset_beside.latches it⟩

theorem State.linkReset_lists (s : State) (d : DomainId) :
    s.linkReset.events.delivery[d].threshold = s.events.delivery[d].threshold ∧ s.linkReset.events.delivery[d].inService = s.events.delivery[d].inService := by
  obtain ⟨hthreshold, hlist⟩ := s.linkReset_beside.lists d
  obtain ⟨hthreshold', hlist'⟩ := s.cutOff.trackerLinkReset.settleAll.eventLinkReset_lists d
  rw [State.linkReset_eq]
  exact ⟨hthreshold'.trans hthreshold, hlist'.trans hlist⟩

theorem State.linkReset_signal (s : State) (d : DomainId) : s.linkReset.events.delivery[d].notice = s.linkReset.events.delivery[d].signal
    ∧ (s.linkReset.events.delivery[d].signal = true ↔ ∃ it, s.linkReset.deliverable d it = true) := by
  rw [State.linkReset_eq]
  exact s.cutOff.trackerLinkReset.settleAll.eventLinkReset_signal d

/-! ### The bays -/

/-- What the tracker's part of a link reset makes of a bay: its queue is thinned, and HELD entries arrive. -/
theorem State.relinked_fills (h : s.tracker.taken.Nodup) (b : BayId) : ∃ kept joined : List EntryId, s.relinked.bays[b] = { s.bays[b] with queue := kept } ∧ kept.Sublist s.bays[b].queue
    ∧ s.relinked.Fills (s.relinked.examineHolds allDomains) b joined ∧ joined.Sublist s.relinked.tracker.taken := by
  obtain ⟨kept, hkept, hsub⟩ := s.relinked_thins b
  obtain ⟨joined, hfills, hjoined, -⟩ := State.examineHolds_fills (State.relinked_nodup h) allDomains b
  exact ⟨kept, joined, hkept, hsub, hfills, hjoined⟩

theorem State.linkReset_keeps (h : s.tracker.Listed) (b : BayId) : s.bays[b].Keeps s.linkReset.bays[b] := by
  obtain ⟨kept, joined, hkept, -, hfills, -⟩ := State.relinked_fills (s := s.cutOff) h.1 b
  rw [State.linkReset_bay h, hfills.bay, hkept]
  exact Bay.Keeps.trans (Bay.Keeps.trans (v := { s.bays[b] with queue := kept }) ⟨rfl, rfl, rfl, rfl, rfl⟩ (.arrivals _ joined)) (.settle _)

/-- An entry that is still HELD after Table 3-4 was HELD, and is posted. -/
theorem State.relinked_held (h : s.tracker.Listed) {e : EntryId} (he : e ∈ s.relinked.tracker.taken) (hs : s.relinked.tracker.entries[e].state = .held) :
    s.tracker.entries[e].state = .held ∧ s.tracker.entries[e].posted = true := by
  obtain ⟨hn, huse, -⟩ := h
  have he' := State.relinked_taken_subset he
  cases State.relinked_entry hn he' (huse e he') with
  | freed hl _ => exact absurd he hl
  | posted _ hp _ hrec =>
    rw [hrec] at hs
    exact ⟨hs, hp⟩
  | marked _ _ hr _ _ _ hrec =>
    rw [hrec] at hs
    exact absurd (hr.symm.trans hs) (by decide)

theorem Bay.runs_iff {b : Bay} {e : EntryId} : b.runs e = true ↔ ∃ run, b.unit = some run ∧ run.entry = e := by
  rw [Bay.runs, Option.any_eq_true]
  exact exists_congr fun run => and_congr_right fun _ => beq_iff_eq

/-- Of the entries of a queue, Table 3-4 keeps the posted ones and the one whose unit is in progress. -/
theorem State.relinked_kept (h : s.tracker.Listed) (hs : s.Filed fun _ => False) (hr : s.relinked.Filed fun _ => False) {b : BayId} {e : EntryId} (he : e ∈ s.bays[b].queue) :
    e ∈ s.relinked.bays[b].queue ↔ s.tracker.entries[e].posted = true ∨ ∃ run, s.bays[b].unit = some run ∧ run.entry = e := by
  obtain ⟨hn, huse, -⟩ := h
  obtain ⟨htaken, hat, -, x, hx, hb⟩ := ((hs.entry e).queue b).1 he
  rw [← Bay.runs_iff]
  cases State.relinked_entry hn htaken (huse e htaken) with
  | freed hl hp =>
    obtain ⟨hposted, hrun⟩ := hp hat
    refine iff_of_false (fun hq => hl (hr.mem_taken hq)) ?_
    rintro (hp' | hrun')
    · exact absurd (hp'.symm.trans hposted) (by decide)
    · obtain ⟨run, hunit, rfl⟩ := Bay.runs_iff.1 hrun'
      obtain ⟨-, hstate⟩ := hs.unit b run hunit
      have hidle := hrun hstate x hx
      simp only [hb, hrun'] at hidle
      cases hidle
  | posted hl hp _ hrec => exact iff_of_true (((hr.entry e).queue b).2 ⟨hl, by rw [hrec]; exact hat, id, x, by rw [hrec]; exact hx, hb⟩) (.inl hp)
  | marked hl _ _ y hy hruns hrec =>
    obtain rfl := Option.some.inj (hx.symm.trans hy)
    exact iff_of_true (((hr.entry e).queue b).2 ⟨hl, by rw [hrec]; exact hat, id, x, by rw [hrec]; exact hx, hb⟩) (.inr (hb ▸ hruns))

/-- After Table 3-4 the tracker's lists and the bay queues still agree. -/
theorem State.WorkSound.relinked (h : s.WorkSound) : s.cutOff.relinked.Filed fun _ => False := by
  have hwork := (h.work (k := { strict := False, examined := False, sound := False }) False.elim False.elim False.elim).cutOff
  obtain ⟨hentries, hnone⟩ := hwork.relinkEntries
  exact (hentries.orderEmptied hnone).filed

end

/-- Settles O4, from Table 3-4 for each entry, the examination of the hold lists after it, and what each bay then does by itself. -/
theorem linkEventsResetTheLink : Obligations.LinkEventsResetTheLink := by
  intro s
  refine ⟨rfl, fun hdown => by simp only [exec, execLinkLost, hdown], fun hup h => ⟨s.linkReset, by simp only [exec, execLinkLost, hup], s.linkReset_uplink, s.linkReset_tables,
    (State.linkReset_order h).1, (State.linkReset_order h).2, fun e he => ?_, fun d => State.linkReset_flags h, ?_⟩⟩
  · rw [State.linkReset_tracker h] at he ⊢
    obtain ⟨hat, hresponse, hmarked⟩ := State.relinked_stays (s := s.cutOff) h he
    exact ⟨hat, hresponse, hmarked⟩
  obtain ⟨hroutes, hdescriptors, hlimit⟩ := s.linkReset_tablesKept
  refine ⟨hroutes, hdescriptors, hlimit, s.linkReset_marks, fun d => ?_, fun b => ?_, fun hwork b hb => ?_, s.linkReset_pending⟩
  · obtain ⟨hthreshold, hlist⟩ := s.linkReset_lists d
    obtain ⟨hnotice, hsignal⟩ := s.linkReset_signal d
    exact ⟨hthreshold, hlist, hnotice, hsignal⟩
  · obtain ⟨hpolicy, hstatus, hexchange, hunit, haux⟩ := State.linkReset_keeps h b
    exact ⟨hpolicy, hstatus, hexchange, hunit, haux⟩
  · obtain ⟨kept, joined, hkept, hsub, hfills, hjoined⟩ := State.relinked_fills (s := s.cutOff) h.1 b
    have htakes := hfills.takes
    rw [hkept] at htakes
    obtain ⟨hreceives, hdrains⟩ := Bay.arrivals_settle hb hsub htakes
    rw [State.linkReset_bay h, hfills.bay, hkept]
    refine ⟨kept, joined, hsub, fun e he => ?_, fun e he => ?_, hreceives, hdrains⟩
    · have hiff := State.relinked_kept (s := s.cutOff) h (State.WorkSound.filed (s := s.cutOff) hwork) hwork.relinked he
      rw [hkept] at hiff
      exact hiff
    · obtain ⟨hheld, -⟩ := hfills.released e he
      exact State.relinked_held (s := s.cutOff) h (hjoined.subset he) hheld

end Sys2Proof.Machine
